-- ==== Sys2Proof/Word.lean ====
section
/-! DEFINITION. The two value types of the block: the 32-bit word (R8) and the byte (R8). -/

namespace Sys2Proof

/-- A word: an unsigned 32-bit integer, bit 0 the least significant (R8, R9). -/
abbrev Word := BitVec 32

/-- A byte: a value in 0 .. 255 (R8). -/
abbrev Byte := BitVec 8

end Sys2Proof
end

