-- ==== Sys2Proof/Config.lean ====
section
/-! DEFINITION. The configuration record `Cfg` of R7: what one instance of the block fixes for good. The machine carries
it in its state (`State.cfg`) and no operation writes it, so a statement about every state is a statement about every
configuration. -/

namespace Sys2Proof

/-- The two readings of finalization pass 2 (R152, R153; 90_conflicts C2). -/
inductive Fold2Mode where
  /-- Each update reads the words as updated so far, ascending (R152): the hardware's behaviour. -/
  | inplace
  /-- Every update reads the pass-1 words (R153): the alternative the prose of the source asks for. -/
  | snapshot
  deriving DecidableEq, Repr

/-- The parameters of R7. Sizes that R6 fixes are not fields. -/
structure Cfg where
  /-- `K[0..23]`, the round constants (R27). -/
  k : Vector Word 24
  /-- `IV[0..15]`, the initial state constants (R28). -/
  iv : Vector Word 16
  /-- `FOLD2_MODE` (R151 to R153). -/
  fold2Mode : Fold2Mode
  /-- `MSG_CAP`, the number of bytes of MSG (R37): OPEN in the spec. -/
  msgCap : Nat
  /-- `MIX_INV_OPS` (R190): OPEN in the spec. -/
  mixInvOps : Nat
  /-- `MIX_MIX_OPS` (R190): OPEN in the spec. -/
  mixMixOps : Nat
  deriving DecidableEq, Repr

/-- The three rows of R27, `K[0..7]`, `K[8..15]` and `K[16..23]` (PRESUMED by the spec, D1; log entry 13). -/
def Config.kRows : Vector (Vector Word 8) 3 :=
  #v[#v[0x428a2f98, 0x71374491, 0xb5c0fbcf, 0xe9b5dba5, 0x3956c25b, 0x59f111f1, 0x923f82a4, 0xab1c5ed5],
     #v[0xd807aa98, 0x12835b01, 0x243185be, 0x550c7dc3, 0x72be5d74, 0x80deb1fe, 0x9bdc06a7, 0xc19bf174],
     #v[0xe49b69c1, 0xefbe4786, 0x0fc19dc6, 0x240ca1cc, 0x2de92c6f, 0x4a7484aa, 0x5cb0a9dc, 0x76f988da]]

/-- The two rows of R28, `IV[0..7]` and `IV[8..15]` (PRESUMED by the spec, D2; log entry 13). -/
def Config.ivRows : Vector (Vector Word 8) 2 :=
  #v[#v[0x6a09e667, 0xbb67ae85, 0x3c6ef372, 0xa54ff53a, 0x510e527f, 0x9b05688c, 0x1f83d9ab, 0x5be0cd19],
     #v[0xcbbb9d5d, 0x629a292a, 0x9159015a, 0x152fecd8, 0x67332667, 0x8eb44a87, 0xdb0c2e0d, 0x47b5481d]]

/-- `K[t]` of R27: word `t mod 8` of row `t div 8`. -/
def Config.defaultK : Vector Word 24 :=
  Vector.ofFn fun t : Fin 24 => Config.kRows[t.val / 8][t.val % 8]

/-- `IV[x]` of R28: word `x mod 8` of row `x div 8`. -/
def Config.defaultIV : Vector Word 16 :=
  Vector.ofFn fun x : Fin 16 => Config.ivRows[x.val / 8][x.val % 8]

/-- The configuration with the decided defaults of R7 (K, IV, INPLACE) and the three OPEN parameters as given. -/
def Config.withOpen (msgCap mixInvOps mixMixOps : Nat) : Cfg :=
  { k := Config.defaultK, iv := Config.defaultIV, fold2Mode := .inplace,
    msgCap := msgCap, mixInvOps := mixInvOps, mixMixOps := mixMixOps }

/-- The instance `State.reset` is built with: the decided defaults of R7, and for the three OPEN parameters the sample
values the spec's own programs use (95_test_vectors section 12). DESIGN CHOICE (log entry 1): the spec leaves the three
open; no statement rests on them. -/
def Config.sample : Cfg := Config.withOpen 4096 10 7

end Sys2Proof
end

