-- ==== Sys2Proof/Syntax.lean ====
section
/-! DEFINITION. The commands of the block, one constructor per row of the opcode table (R74). -/

namespace Sys2Proof

/-- A command (R2, R74): the block's only kind of instruction, the data of a host write to CMD. -/
inductive Instr where
  /-- HASH (R160): the digest of `MSG[0 .. MLEN-1]` into F. -/
  | hash
  /-- AVAL (R171): the avalanche count for (`MSG[0 .. MLEN-1]`, BITPOS). -/
  | aval
  /-- XCM (R181): the 32 by 32 cancellation matrix and its minimum. -/
  | xcm
  /-- XCME i, j (R183): one matrix entry. The operands are the 5-bit fields `c[12:8]` and `c[20:16]`, used as they are
  (R73). -/
  | xcme (i j : BitVec 5)
  /-- MIX (R191): the mix ratio and score. -/
  | mix
  /-- CLR (R162): results and flags to their reset values. -/
  | clr
  deriving DecidableEq, Repr

end Sys2Proof
end

