-- ==== Sys2Proof/WellFormed.lean ====
section
/-! DEFINITION. Which instructions and which configurations are well formed. -/

namespace Sys2Proof

/-- An instruction is well formed when its matrix indices are in 0 .. 31. The 5-bit operand type already says so, as
R73 does ("Every 5-bit value is a legal index"); the check is written out so that a reader sees it. -/
def Instr.wellFormed : Instr → Bool
  | .hash => true
  | .aval => true
  | .xcm => true
  | .xcme i j => decide (i.toNat < 32) && decide (j.toNat < 32)
  | .mix => true
  | .clr => true

/-- `0 <= MSG_CAP < 2^64` (R7). -/
def Cfg.capInRange (c : Cfg) : Bool := decide (c.msgCap < 2 ^ 64)

/-- `1 <= MIX_INV_OPS < 2^16` (R7, R190). -/
def Cfg.invOpsInRange (c : Cfg) : Bool := decide (1 ≤ c.mixInvOps) && decide (c.mixInvOps < 2 ^ 16)

/-- `0 <= MIX_MIX_OPS < 2^16` (R7, R190). -/
def Cfg.mixOpsInRange (c : Cfg) : Bool := decide (c.mixMixOps < 2 ^ 16)

/-- A legal configuration: every OPEN parameter is in the range R7 gives it. R190 and 93_implementation_defined U5: a
model refuses any other. -/
def Cfg.legal (c : Cfg) : Bool := c.capInRange && c.invOpsInRange && c.mixOpsInRange

end Sys2Proof
end

