-- ==== Sys2Proof/Machine/State.lean ====
section
/-! DEFINITION. The state of the block as plain data: every register of R29, the constants of R26 to R28 (inside the
configuration), the message memory of R37, the sequencer of R25 with the working registers of R38, and the host's side of
the two ports (the transactions the host has issued and the answer to the last one), which is the model's own. -/

namespace Sys2Proof.Machine

/-- The message memory MSG (R37): (address, byte) pairs in the canonical form of `Memory.wf` (Machine/Ops.lean). -/
abbrev Memory := List Host.Cell

/-- STATUS (R36), one field per named field of the register. The reserved bits 7 and 31:12 are no fields: they read 0
(`statusWord`, Machine/Flags.lean; DEDUCED, log entry 8). -/
structure Status where
  /-- Bit 0, DV: F holds the digest of a completed hash computation. -/
  dv : Bool
  /-- Bit 1, AV: REF and AVCNT hold the result of a completed AVAL. -/
  av : Bool
  /-- Bit 2, XV: XCM and XMIN hold the matrix. -/
  xv : Bool
  /-- Bit 3, EV: XENT holds an entry. -/
  ev : Bool
  /-- Bit 4, MV: MIXNUM, MIXDEN and SCORENUM hold a result. -/
  mv : Bool
  /-- Bit 5, XGE4: XMIN >= 4. -/
  xge4 : Bool
  /-- Bit 6, MGT4: SCORENUM > 4 * MIXDEN. -/
  mgt4 : Bool
  /-- Bits 11:8, ERRCODE: the outcome of the most recent command (R200). -/
  errcode : BitVec 4
  deriving DecidableEq, Repr

/-- STATUS = 0, its reset value (R40). -/
def Status.zero : Status :=
  { dv := false, av := false, xv := false, ev := false, mv := false, xge4 := false, mgt4 := false, errcode := 0 }

/-- The four error causes of R200. -/
inductive CommandError where
  /-- Code 1: the command word matches no row of R74. -/
  | illegalCmd
  /-- Code 2: MLEN >= 2^61 (R201). -/
  | lenOverflow
  /-- Code 3: MLEN > MSG_CAP (R202). -/
  | msgRange
  /-- Code 4: BITPOS >= 8 * MLEN (R203). -/
  | bitposRange
  deriving DecidableEq, Repr

/-- The valid flag of the result a failing command would have produced, which R204 clears. -/
inductive ResultFlag where
  /-- DV, for HASH. -/
  | digest
  /-- AV, for AVAL. -/
  | avalanche
  /-- None, for an illegal command word. -/
  | noResult
  deriving DecidableEq, Repr

/-- A host operation (R20): a transaction on one of the two ports (R50, R51) or the reset event (R230). Every CMD write,
and so every command, is a `regWrite` at address 0x000. -/
inductive HostOp where
  /-- `RegRead(a)`, a word address of 11 bits (R50). -/
  | regRead (a : BitVec 11)
  /-- `RegWrite(a, v)` (R50). -/
  | regWrite (a : BitVec 11) (v : Word)
  /-- `MsgRead(addr)`, a byte address below 2^64 (R51). -/
  | msgRead (addr : BitVec 64)
  /-- `MsgWrite(addr, b)` (R51). -/
  | msgWrite (addr : BitVec 64) (b : Byte)
  /-- `RESET`, the reset event (R230; DESIGN CHOICE, log entry 7). -/
  | reset
  deriving DecidableEq, Repr

/-- What the last completed host operation answered (the `Response` of R20). -/
inductive Response where
  /-- No host operation has completed yet. -/
  | noneYet
  /-- A write or a reset completed: it returns no value and there is no bus error (R204). -/
  | done
  /-- The word a `RegRead` returned. -/
  | word (v : Word)
  /-- The byte a `MsgRead` returned. -/
  | byte (b : Byte)
  deriving DecidableEq, Repr

/-- Which hash computation the sequencer runs: that of HASH, or the first or the second of AVAL (R160, R171). -/
inductive Job where
  /-- The one computation of HASH. -/
  | hash
  /-- AVAL's computation on the message in MSG. -/
  | avalMessage
  /-- AVAL's computation on the flipped copy. -/
  | avalCopy
  deriving DecidableEq, Repr

/-- The sequencer of R25 with the working registers of R38. Between commands it is IDLE and nothing else of it has a
value; V and P stand in the phases in which they hold something. -/
inductive Sequencer where
  /-- IDLE: no command runs. -/
  | idle
  /-- CHECK: the operand checks. -/
  | check (job : Job)
  /-- LOAD: the sixteen words of block BLK enter W. -/
  | load (job : Job) (blk : Nat)
  /-- EXPAND: W[16 + i] is next, i in 0 .. 7. -/
  | expand (job : Job) (blk : Nat) (i : Fin 8)
  /-- ROUND: round T is next, on the working state V. -/
  | round (job : Job) (blk : Nat) (t : Fin 24) (v : Vector Word 16)
  /-- FEED: the feed-forward of V is next. -/
  | feed (job : Job) (blk : Nat) (v : Vector Word 16)
  /-- FOLD1: P[i] is next. -/
  | fold1 (job : Job) (i : Fin 8) (p : Vector Word 8)
  /-- FOLD2: F[i] is next; P is kept for the SNAPSHOT mode. -/
  | fold2 (job : Job) (i : Fin 8) (p : Vector Word 8)
  deriving DecidableEq, Repr

/-- The registers of the map of R29, by name. -/
inductive Reg where
  /-- CMD, write-only. -/
  | cmd
  /-- STATUS. -/
  | status
  /-- MLEN[31:0]. -/
  | mlenLo
  /-- MLEN[63:32]. -/
  | mlenHi
  /-- BITPOS[31:0]. -/
  | bitposLo
  /-- BITPOS[63:32]. -/
  | bitposHi
  /-- AVCNT. -/
  | avcnt
  /-- XMIN. -/
  | xmin
  /-- XENT. -/
  | xent
  /-- MIXNUM. -/
  | mixnum
  /-- MIXDEN. -/
  | mixden
  /-- SCORENUM. -/
  | scorenum
  /-- MSG_CAP[31:0]. -/
  | capLo
  /-- MSG_CAP[63:32]. -/
  | capHi
  /-- DIGESTi = F[i]. -/
  | digest (i : Fin 8)
  /-- REFi = REF[i]. -/
  | ref (i : Fin 8)
  /-- Hx = H[x]. -/
  | h (x : Fin 16)
  /-- Wi = W[i]. -/
  | w (i : Fin 24)
  /-- Kt = K[t]. -/
  | k (t : Fin 24)
  /-- IVx = IV[x]. -/
  | iv (x : Fin 16)
  /-- XCM[i][j]. -/
  | xcm (i j : Fin 32)
  deriving DecidableEq, Repr

/-- The whole state of one instance of the block. -/
structure State where
  /-- The configuration record of R7; no operation writes it (R26). It holds K (R27), IV (R28) and MSG_CAP (CAP_LO, CAP_HI,
  R29). -/
  cfg : Cfg
  /-- MLEN, the message length in bytes (R30). -/
  mlen : BitVec 64
  /-- BITPOS, the bit position of the next AVAL (R30). -/
  bitpos : BitVec 64
  /-- STATUS (R36). -/
  status : Status
  /-- H[0..15], the chaining state (R21). -/
  h : Vector Word 16
  /-- W[0..23], the message schedule (R22). -/
  w : Vector Word 24
  /-- F[0..7], the digest words (R23). -/
  f : Vector Word 8
  /-- REF[0..7], the digest of the unmodified message (R31). -/
  ref : Vector Word 8
  /-- AVCNT, 9 bits (R32). -/
  avcnt : BitVec 9
  /-- XCM[0..31][0..31], 3 bits each (R33). -/
  xcm : Vector (Vector (BitVec 3) 32) 32
  /-- XMIN, 3 bits (R34). -/
  xmin : BitVec 3
  /-- XENT, 3 bits (R34). -/
  xent : BitVec 3
  /-- MIXNUM, 16 bits (R35). -/
  mixnum : BitVec 16
  /-- MIXDEN, 16 bits (R35). -/
  mixden : BitVec 16
  /-- SCORENUM, 21 bits (R35). -/
  scorenum : BitVec 21
  /-- MSG, the message memory (R37). -/
  msg : Memory
  /-- The sequencer with V and P (R25, R38; DEDUCED, log entry 5). -/
  seq : Sequencer
  /-- The model's own (DESIGN CHOICE, log entry 3): the host operations issued and not yet performed, oldest first (R57). -/
  pending : List HostOp
  /-- The model's own (DESIGN CHOICE, log entries 3 and 7): the answer to the last host operation performed (R20). -/
  response : Response
  deriving DecidableEq, Repr

/-- Why a step stops with a fault. There is no constructor: no rule of the spec stops the machine. Every host transaction
completes (R204: "There is no bus error"), and every error is a code in STATUS.ERRCODE (R200). -/
inductive Fault where
  deriving DecidableEq, Repr

/-- Why a step gives no meaning. -/
inductive Refusal where
  /-- Raised by `exec` for an instruction without a meaning; no arm of this model raises it. Safe. -/
  | notModelled (mnemonic : String)
  /-- Raised by `step` when the configuration is not a legal one (R190, 93_implementation_defined U5: "A model `refuse`s a
  configuration"). Safe: nothing is claimed of such an instance. -/
  | illegalConfiguration
  deriving DecidableEq, Repr

/-- The state at power-on of an instance with configuration `cfg` whose message memory holds `msg`: every register at its
reset value (R40), MSG as it happens to be (R37; 93_implementation_defined U3 asks for it as an argument), no transaction
issued yet. -/
def State.powerOn (cfg : Cfg) (msg : Memory) : State :=
  { cfg := cfg
    mlen := 0
    bitpos := 0
    status := Status.zero
    h := Vector.replicate 16 0
    w := Vector.replicate 24 0
    f := Vector.replicate 8 0
    ref := Vector.replicate 8 0
    avcnt := 0
    xcm := Vector.replicate 32 (Vector.replicate 32 0)
    xmin := 0
    xent := 0
    mixnum := 0
    mixden := 0
    scorenum := 0
    msg := msg
    seq := .idle
    pending := []
    response := .noneYet }

/-- The machine right after reset: the sample configuration (log entry 1) and a message memory with nothing listed
(log entry 2). -/
def State.reset : State := State.powerOn Config.sample []

end Sys2Proof.Machine
end

