-- ==== Sys2Proof/Machine/Flags.lean ====
section
/-! DEFINITION. Every computation of STATUS (R36): its word, the codes of R200, what success and an error do to it, and
the two report bits. -/

namespace Sys2Proof.Machine

/-- The STATUS word (R36): bits 31:12 and 7 read 0. -/
def statusWord (st : Status) : Word :=
  0#20 ++ st.errcode ++ 0#1 ++ BitVec.ofBool st.mgt4 ++ BitVec.ofBool st.xge4 ++ BitVec.ofBool st.mv
    ++ BitVec.ofBool st.ev ++ BitVec.ofBool st.xv ++ BitVec.ofBool st.av ++ BitVec.ofBool st.dv

/-- ERRCODE of an error (R200). -/
def errorCode : CommandError → BitVec 4
  | .illegalCmd => 1
  | .lenOverflow => 2
  | .msgRange => 3
  | .bitposRange => 4

/-- STATUS after an error (R204). -/
def statusOnError (flag : ResultFlag) (e : CommandError) (st : Status) : Status :=
  match flag with
  | .digest => { st with dv := false, errcode := errorCode e }
  | .avalanche => { st with av := false, errcode := errorCode e }
  | .noResult => { st with errcode := errorCode e }

/-- STATUS after success, beside the flags the command sets (R210): ERRCODE is 0. -/
def statusOnSuccess (st : Status) : Status := { st with errcode := 0 }

/-- XGE4 (R36, R181): XMIN >= 4. -/
def xge4Of (minimum : Nat) : Bool := decide (4 ≤ minimum)

/-- MGT4 (R192): `SCORENUM > 4 * MIXDEN`, on naturals; equality gives 0. -/
def mgt4Of (scorenum mixden : Nat) : Bool := decide (scorenum > 4 * mixden)

end Sys2Proof.Machine
end

