-- ==== Sys2Proof/Machine/Ops.lean ====
section
/-! DEFINITION. The named operations over memory and registers: the message memory and its canonical form, the register
map of R29, raising an error (R204) and completing without one (R210), reset and CLR's clearing. -/

namespace Sys2Proof.Machine

/-! ### The message memory -/

/-- What a byte of MSG that no entry lists holds. DESIGN CHOICE (log entry 2): R37 leaves the power-on content open; any
other content is the same machine with those bytes listed. -/
def Memory.unlisted : Byte := 0

/-- The byte at an address. -/
def Memory.read : Memory → Nat → Byte
  | [], _ => Memory.unlisted
  | (a, b) :: rest, addr => if a = addr then b else Memory.read rest addr

/-- Insert a byte that differs from `Memory.unlisted` into a rising list. -/
def Memory.insert : Memory → Nat → Byte → Memory
  | [], addr, b => [(addr, b)]
  | (a, c) :: rest, addr, b =>
    if addr < a then (addr, b) :: (a, c) :: rest
    else if addr = a then (addr, b) :: rest
    else (a, c) :: Memory.insert rest addr b

/-- Remove the entry of an address. -/
def Memory.erase (m : Memory) (addr : Nat) : Memory := m.filter fun c => c.1 != addr

/-- Write one byte, keeping the canonical form. -/
def Memory.write (m : Memory) (addr : Nat) (b : Byte) : Memory :=
  if b = Memory.unlisted then Memory.erase m addr else Memory.insert m addr b

/-- The canonical form: addresses strictly rising, no entry equal to what an unlisted address holds. -/
def Memory.wf (m : Memory) : Bool :=
  decide (m.Pairwise fun x y => x.1 < y.1) && m.all fun c => c.2 != Memory.unlisted

/-- Every listed address exists: it is below MSG_CAP (R37). -/
def Memory.within (cap : Nat) (m : Memory) : Bool := m.all fun c => decide (c.1 < cap)

/-- `MsgRead(addr)` (R52): 0 at and beyond MSG_CAP. -/
def msgRead (addr : BitVec 64) (s : State) : Byte :=
  if addr.toNat < s.cfg.msgCap then Memory.read s.msg addr.toNat else 0

/-- `MsgWrite(addr, b)` (R53): ignored at and beyond MSG_CAP. -/
def msgWrite (addr : BitVec 64) (b : Byte) (s : State) : State :=
  if addr.toNat < s.cfg.msgCap then { s with msg := Memory.write s.msg addr.toNat b } else s

/-! ### The register map -/

/-- The word address of a register (R29). -/
def regAddress : Reg → BitVec 11
  | .cmd => 0x000
  | .status => 0x001
  | .mlenLo => 0x002
  | .mlenHi => 0x003
  | .bitposLo => 0x004
  | .bitposHi => 0x005
  | .avcnt => 0x006
  | .xmin => 0x007
  | .xent => 0x008
  | .mixnum => 0x009
  | .mixden => 0x00A
  | .scorenum => 0x00B
  | .capLo => 0x00C
  | .capHi => 0x00D
  | .digest i => BitVec.ofNat 11 (0x010 + i.val)
  | .ref i => BitVec.ofNat 11 (0x018 + i.val)
  | .h x => BitVec.ofNat 11 (0x020 + x.val)
  | .w i => BitVec.ofNat 11 (0x040 + i.val)
  | .k t => BitVec.ofNat 11 (0x060 + t.val)
  | .iv x => BitVec.ofNat 11 (0x080 + x.val)
  | .xcm i j => BitVec.ofNat 11 (0x400 + 32 * i.val + j.val)

/-- The register at a word address (R29), none at a reserved address (R78). -/
def regAt (a : BitVec 11) : Option Reg :=
  let n := a.toNat
  if n < 0x010 then
    match n with
    | 0x000 => some .cmd
    | 0x001 => some .status
    | 0x002 => some .mlenLo
    | 0x003 => some .mlenHi
    | 0x004 => some .bitposLo
    | 0x005 => some .bitposHi
    | 0x006 => some .avcnt
    | 0x007 => some .xmin
    | 0x008 => some .xent
    | 0x009 => some .mixnum
    | 0x00A => some .mixden
    | 0x00B => some .scorenum
    | 0x00C => some .capLo
    | 0x00D => some .capHi
    | _ => none
  else if n < 0x018 then some (.digest (Fin.ofNat 8 (n - 0x010)))
  else if n < 0x020 then some (.ref (Fin.ofNat 8 (n - 0x018)))
  else if n < 0x030 then some (.h (Fin.ofNat 16 (n - 0x020)))
  else if n < 0x040 then none
  else if n < 0x058 then some (.w (Fin.ofNat 24 (n - 0x040)))
  else if n < 0x060 then none
  else if n < 0x078 then some (.k (Fin.ofNat 24 (n - 0x060)))
  else if n < 0x080 then none
  else if n < 0x090 then some (.iv (Fin.ofNat 16 (n - 0x080)))
  else if n < 0x400 then none
  else some (.xcm (Fin.ofNat 32 ((n - 0x400) / 32)) (Fin.ofNat 32 ((n - 0x400) % 32)))

/-- What a register reads as (R29, R56): zero-extended to 32 bits; CMD is write-only and reads 0. -/
def regValue (r : Reg) (s : State) : Word :=
  match r with
  | .cmd => 0
  | .status => statusWord s.status
  | .mlenLo => s.mlen.extractLsb' 0 32
  | .mlenHi => s.mlen.extractLsb' 32 32
  | .bitposLo => s.bitpos.extractLsb' 0 32
  | .bitposHi => s.bitpos.extractLsb' 32 32
  | .avcnt => s.avcnt.setWidth 32
  | .xmin => s.xmin.setWidth 32
  | .xent => s.xent.setWidth 32
  | .mixnum => s.mixnum.setWidth 32
  | .mixden => s.mixden.setWidth 32
  | .scorenum => s.scorenum.setWidth 32
  | .capLo => BitVec.ofNat 32 s.cfg.msgCap
  | .capHi => BitVec.ofNat 32 (s.cfg.msgCap / 2 ^ 32)
  | .digest i => s.f[i]
  | .ref i => s.ref[i]
  | .h x => s.h[x]
  | .w i => s.w[i]
  | .k t => s.cfg.k[t]
  | .iv x => s.cfg.iv[x]
  | .xcm i j => s.xcm[i][j].setWidth 32

/-- `RegRead(a)` (R56): a reserved address reads 0 (R78). -/
def regRead (a : BitVec 11) (s : State) : Word :=
  match regAt a with
  | some r => regValue r s
  | none => 0

/-- Replace bits 31:0 of a 64-bit register. -/
def writeLow (x : BitVec 64) (v : Word) : BitVec 64 := x.extractLsb' 32 32 ++ v

/-- Replace bits 63:32 of a 64-bit register. -/
def writeHigh (x : BitVec 64) (v : Word) : BitVec 64 := v ++ x.extractLsb' 0 32

/-- A `RegWrite` to a register other than CMD (R56): the four halves of MLEN and BITPOS take the word (R30); a write to any
other register or to a reserved address does nothing (R78). The write to CMD is `transact`'s (Machine/Transactions.lean). -/
def regWrite (a : BitVec 11) (v : Word) (s : State) : State :=
  match regAt a with
  | some .mlenLo => { s with mlen := writeLow s.mlen v }
  | some .mlenHi => { s with mlen := writeHigh s.mlen v }
  | some .bitposLo => { s with bitpos := writeLow s.bitpos v }
  | some .bitposHi => { s with bitpos := writeHigh s.bitpos v }
  | _ => s

/-! ### Errors, success, clearing -/

/-- `raise <Error>` (R204): ERRCODE takes the code, the valid flag of the result the command would have produced is
cleared, and nothing else changes. This is the whole of taking an error: nothing is saved and control goes nowhere (R209). -/
def raiseError (flag : ResultFlag) (e : CommandError) (s : State) : State :=
  { s with status := statusOnError flag e s.status }

/-- The counterpart of a return (R210: there is none): a command that succeeds sets ERRCODE to 0, and so leaves no trace
of an earlier error; `upd` is what else it does to STATUS. -/
def succeed (upd : Status → Status) (s : State) : State :=
  { s with status := statusOnSuccess (upd s.status) }

/-- Every result register and STATUS at its reset value; MLEN, BITPOS, MSG and the configuration kept (R162). -/
def clearResults (s : State) : State :=
  { s with
    status := Status.zero
    h := Vector.replicate 16 0
    w := Vector.replicate 24 0
    f := Vector.replicate 8 0
    ref := Vector.replicate 8 0
    avcnt := 0
    xcm := Vector.replicate 32 (Vector.replicate 32 0)
    xmin := 0
    xent := 0
    mixnum := 0
    mixden := 0
    scorenum := 0 }

/-- The reset event (R230): every register at its reset value (R40), the sequencer IDLE, MSG and the constants kept. -/
def resetEvent (s : State) : State :=
  { s with
    mlen := 0
    bitpos := 0
    status := Status.zero
    h := Vector.replicate 16 0
    w := Vector.replicate 24 0
    f := Vector.replicate 8 0
    ref := Vector.replicate 8 0
    avcnt := 0
    xcm := Vector.replicate 32 (Vector.replicate 32 0)
    xmin := 0
    xent := 0
    mixnum := 0
    mixden := 0
    scorenum := 0
    seq := .idle }

/-! ### The host's side -/

/-- Take the oldest host operation off the queue: what is left is `rest`, and the operation's answer is `r`. -/
def accept (rest : List HostOp) (r : Response) (s : State) : State := { s with pending := rest, response := r }

end Sys2Proof.Machine
end

