-- ==== Sys2Proof/Machine/Primitives.lean ====
section
/-! DEFINITION. The word primitives of 40_word_primitives (R90 to R102) and the byte-order helpers of R10. Each is a
function of its arguments alone. Rotation and shift amounts are `Fin 32`: the spec gives them the domain 0 .. 31 (R90 to
R92, D22) and no meaning outside it (DEDUCED, log entry 9). -/

namespace Sys2Proof.Machine

/-- `rotl(x, n)` (R90). -/
def rotl (x : Word) (n : Fin 32) : Word := x.rotateLeft n.val

/-- `rotr(x, n)` (R91). -/
def rotr (x : Word) (n : Fin 32) : Word := x.rotateRight n.val

/-- `shr(x, n)` (R92): logical right shift. -/
def shr (x : Word) (n : Fin 32) : Word := x >>> n.val

/-- `add32` of any number of words (R93): the sum mod 2^32. -/
def add32 (ws : List Word) : Word := ws.foldl (· + ·) 0

/-- `mul32(a, b)` (R94): the low 32 bits of the product. -/
def mul32 (a b : Word) : Word := a * b

/-- `ch(e, f, g)` (R95): bitwise conditional select. -/
def ch (e f g : Word) : Word := (e &&& f) ^^^ (~~~e &&& g)

/-- `maj(a, b, c)` (R96): bitwise majority. -/
def maj (a b c : Word) : Word := (a &&& b) ^^^ (a &&& c) ^^^ (b &&& c)

/-- `sigma0(x)` (R97). -/
def sigma0 (x : Word) : Word := rotr x 2 ^^^ rotr x 13 ^^^ rotr x 22

/-- `sigma1(x)` (R98). -/
def sigma1 (x : Word) : Word := rotr x 6 ^^^ rotr x 11 ^^^ rotr x 25

/-- `small_sigma0(x)` (R99); its third term is a shift. -/
def smallSigma0 (x : Word) : Word := rotr x 7 ^^^ rotr x 18 ^^^ shr x 3

/-- `small_sigma1(x)` (R100); its third term is a shift. -/
def smallSigma1 (x : Word) : Word := rotr x 17 ^^^ rotr x 19 ^^^ shr x 10

/-- `x OR 1` (R101). -/
def or1 (x : Word) : Word := x ||| 1

/-- `popcount(x)` (R102), of a word. -/
def popcount (x : Word) : Nat := (List.range 32).countP (fun k => x.getLsbD k)

/-- `be32(b0, b1, b2, b3)` (R10): big-endian assembly of four bytes. -/
def be32 (b0 b1 b2 b3 : Byte) : Word := b0 ++ b1 ++ b2 ++ b3

/-- Byte `k` of `bytes_be(v, n)` (R10), `k` counted from the most significant byte. -/
def byteBe (v n k : Nat) : Byte := BitVec.ofNat 8 (v / 2 ^ (8 * (n - 1 - k)))

/-- `bytes_be(v, n)` (R10). -/
def bytesBe (v n : Nat) : List Byte := (List.range n).map (byteBe v n)

end Sys2Proof.Machine
end

