-- ==== Sys2Proof/Machine/Expander.lean ====
section
/-! DEFINITION. The block expander of 42_block_expander (R120 to R124). -/

namespace Sys2Proof.Machine

/-- `W[i]` for i in 0 .. 15 (R120): the big-endian parse of bytes 4i .. 4i + 3. -/
def blockWord (b : Vector Byte 64) (i : Fin 16) : Word :=
  be32 b[4 * i.val] b[4 * i.val + 1] b[4 * i.val + 2] b[4 * i.val + 3]

/-- R120 as a register update: the sixteen words of the block enter `W[0..15]`; `W[16..23]` keep their values. -/
def loadBlock (w : Vector Word 24) (b : Vector Byte 64) : Vector Word 24 :=
  Vector.ofFn fun i : Fin 24 => if h : i.val < 16 then blockWord b ⟨i.val, h⟩ else w[i]

/-- The value R121 gives `W[16 + i]`, for i in 0 .. 7. -/
def expandedWord (w : Vector Word 24) (i : Fin 8) : Word :=
  let linear := add32 [smallSigma1 w[14 + i.val], w[9 + i.val], smallSigma0 w[1 + i.val], w[i.val]]
  let nonlinear := mul32 (or1 w[13 + i.val]) (or1 w[6 + i.val])
  add32 [linear, nonlinear]

/-- R121 for one index: `W[16 + i]` is written, the other words keep their values. -/
def expandStep (w : Vector Word 24) (i : Fin 8) : Vector Word 24 := w.set (16 + i.val) (expandedWord w i)

/-- The schedule of a block (R120, R121): the words of the block, then indices 16 .. 23 in ascending order (R122). It
depends on the block alone (R123). -/
def schedule (b : Vector Byte 64) : Vector Word 24 :=
  (List.finRange 8).foldl expandStep (loadBlock (Vector.replicate 24 0) b)

end Sys2Proof.Machine
end

