-- ==== Sys2Proof/Machine/Compression.lean ====
section
/-! DEFINITION. The round and compression engine of 43_round_compression (R130 to R142). The letters a .. p are the words
`V[0] .. V[15]` at the start of the round (R11). -/

namespace Sys2Proof.Machine

/-- The mask of R133. -/
def lowerMask : Word := 0x5A5A5A5A

/-- `Round(V, k, w)` (R131 to R135): the sixteen new words, all from the old sixteen. -/
def roundStep (v : Vector Word 16) (kt wt : Word) : Vector Word 16 :=
  let a := v[0]; let b := v[1]; let c := v[2]; let d := v[3]
  let e := v[4]; let f := v[5]; let g := v[6]; let h := v[7]
  let i := v[8]; let j := v[9]; let k := v[10]; let l := v[11]
  let m := v[12]; let n := v[13]; let o := v[14]; let p := v[15]
  let t1 := add32 [h, sigma1 e, ch e f g, kt, wt]
  let t2 := add32 [sigma0 a, maj a b c]
  let m1 := mul32 (a ^^^ i) (e ^^^ m)
  let m2 := mul32 (b ^^^ j) (f ^^^ n)
  let m3 := mul32 (c ^^^ k) (g ^^^ o)
  let m4 := mul32 (d ^^^ l) (h ^^^ p)
  let t3 := add32 [p, sigma1 m, ch m n o, kt ^^^ lowerMask, wt]
  let t4 := add32 [sigma0 i, maj i j k]
  #v[add32 [t1, t2, m1], a, b, add32 [c, m2], add32 [d, t1], e, f, add32 [g, m3],
     add32 [t3, t4, m1], i, j, add32 [k, m4], add32 [l, t3], m, n, add32 [o, m2 ^^^ m3]]

/-- `Perm(V)` (R136): the interleaving of the two halves. -/
def perm (v : Vector Word 16) : Vector Word 16 :=
  Vector.ofFn fun x : Fin 16 => if x.val % 2 = 0 then v[x.val / 2] else v[x.val / 2 + 8]

/-- Round `t` of a block and the permutation that follows it when t mod 4 = 3 (R137). -/
def blockRound (cfg : Cfg) (w : Vector Word 24) (v : Vector Word 16) (t : Fin 24) : Vector Word 16 :=
  let v' := roundStep v cfg.k[t] w[t]
  if t.val % 4 = 3 then perm v' else v'

/-- The feed-forward (R139): word-wise addition of the working state to the chaining state from before the block. -/
def feedForward (h v : Vector Word 16) : Vector Word 16 :=
  Vector.ofFn fun x : Fin 16 => add32 [h[x], v[x]]

/-- The 24 rounds in ascending order (R137), from the working state `v`. -/
def rounds (cfg : Cfg) (w : Vector Word 24) (v : Vector Word 16) : Vector Word 16 :=
  (List.finRange 24).foldl (blockRound cfg w) v

/-- `Compress(Hin, B)` (R140): V starts as a copy of H (R130), runs the 24 rounds on the schedule of B and is added to
H. -/
def compress (cfg : Cfg) (h : Vector Word 16) (b : Vector Byte 64) : Vector Word 16 :=
  feedForward h (rounds cfg (schedule b) h)

end Sys2Proof.Machine
end

