-- ==== Sys2Proof/Machine/Finalization.lean ====
section
/-! DEFINITION. The finalization folder of 44_finalization (R150 to R156). -/

namespace Sys2Proof.Machine

/-- `P[i]` (R150), for i in 0 .. 7. -/
def foldWord (h : Vector Word 16) (i : Fin 8) : Word :=
  let upper := h[i.val]
  let lower := h[i.val + 8]
  add32 [upper ^^^ lower, mul32 (or1 upper) (or1 (rotl lower 13)), rotr (upper ^^^ lower) ⟨i.val + 1, by omega⟩]

/-- Pass 1 (R150). -/
def pass1 (h : Vector Word 16) : Vector Word 8 := Vector.ofFn (foldWord h)

/-- `U(i, X, y)` (R151). -/
def diffuseWord (i : Fin 8) (x : Vector Word 8) (y : Word) : Word :=
  add32 [y, mul32 (or1 x[(i.val + 1) % 8]) (or1 x[(i.val + 5) % 8]), rotr x[(i.val + 3) % 8] 7]

/-- One update of pass 2, of `F[i]`: INPLACE reads the words as updated so far (R152), SNAPSHOT the pass-1 words `p`
(R153). -/
def pass2Step (mode : Fold2Mode) (p : Vector Word 8) (f : Vector Word 8) (i : Fin 8) : Vector Word 8 :=
  match mode with
  | .inplace => f.set i.val (diffuseWord i f f[i])
  | .snapshot => f.set i.val (diffuseWord i p p[i])

/-- Pass 2: F starts as a copy of P and is updated in ascending order (R152, R153). -/
def pass2 (mode : Fold2Mode) (p : Vector Word 8) : Vector Word 8 :=
  (List.finRange 8).foldl (pass2Step mode p) p

/-- `Finalize(H)` (R155). -/
def finalize (cfg : Cfg) (h : Vector Word 16) : Vector Word 8 := pass2 cfg.fold2Mode (pass1 h)

/-- The 32 digest bytes (R154), byte 0 first: the eight words big-endian, concatenated. -/
def digestBytes (f : Vector Word 8) : List Byte := f.toList.flatMap fun x => bytesBe x.toNat 4

end Sys2Proof.Machine
end

