-- ==== Sys2Proof/Machine/Padding.lean ====
section
/-! DEFINITION. The padding unit of 41_padding (R110 to R116). A message is its length and its bytes; the bytes are a
function of the index, so that the same unit pads MSG and the flipped copy of the avalanche tester. -/

namespace Sys2Proof.Machine

/-- The zero count Z (R111): `(55 - L) mod 64` taken in 0 .. 63. -/
def zeroCount (len : Nat) : Nat := (119 - len % 64) % 64

/-- The block count NB (R112). -/
def numBlocks (len : Nat) : Nat := (len + 8) / 64 + 1

/-- `pad(M)` (R110), as a list. Total: of a message of 2^61 bytes or more, which R114 gives no value, it is used nowhere
(DEDUCED, log entry 12). -/
def pad (msg : List Byte) : List Byte :=
  msg ++ [0x80] ++ List.replicate (zeroCount msg.length) 0 ++ bytesBe (8 * msg.length) 8

/-- The padded-byte function `PB(q)` (R113) of the message of `len` bytes `m 0 .. m (len - 1)`, for `q < 64 * NB`. -/
def paddedByte (m : Nat → Byte) (len q : Nat) : Byte :=
  if q < len then m q
  else if q = len then 0x80
  else if q < 64 * numBlocks len - 8 then 0
  else byteBe (8 * len) 8 (q - (64 * numBlocks len - 8))

/-- Block `b` of the padded message (R113): the 64 bytes `PB(64b) .. PB(64b + 63)`. -/
def block (m : Nat → Byte) (len b : Nat) : Vector Byte 64 :=
  Vector.ofFn fun q : Fin 64 => paddedByte m len (64 * b + q.val)

end Sys2Proof.Machine
end

