-- ==== Sys2Proof/Machine/Pipeline.lean ====
section
/-! DEFINITION. One hash computation as a value (R160, R161): padding, compression block by block, finalization. HASH runs
it once and AVAL twice. -/

namespace Sys2Proof.Machine

/-- The chaining state after the first `b` blocks of the padded message (R161): `H_0 = IV`,
`H_(b+1) = Compress(H_b, block b)`. -/
def chain (cfg : Cfg) (m : Nat → Byte) (len : Nat) : Nat → Vector Word 16
  | 0 => cfg.iv
  | b + 1 => compress cfg (chain cfg m len b) (block m len b)

/-- The chaining state after the last block. -/
def finalState (cfg : Cfg) (m : Nat → Byte) (len : Nat) : Vector Word 16 := chain cfg m len (numBlocks len)

/-- The schedule of the last block, which a hash computation leaves in W (R160). -/
def lastSchedule (m : Nat → Byte) (len : Nat) : Vector Word 24 := schedule (block m len (numBlocks len - 1))

/-- `Hash(M)` (R161): the eight digest words of the message of `len` bytes `m 0 .. m (len - 1)`. -/
def digestWords (cfg : Cfg) (m : Nat → Byte) (len : Nat) : Vector Word 8 := finalize cfg (finalState cfg m len)

/-- The bytes of a message that is given as a list. -/
def listBytes (msg : List Byte) (q : Nat) : Byte := msg.getD q 0

/-- The source's `hash(bytes) -> 32 bytes` (R161, R154). -/
def hashOfList (cfg : Cfg) (msg : List Byte) : List Byte :=
  digestBytes (digestWords cfg (listBytes msg) msg.length)

/-- Block `b` of a byte sequence that is a multiple of 64 bytes long. -/
def listBlock (padded : List Byte) (b : Nat) : Vector Byte 64 :=
  Vector.ofFn fun q : Fin 64 => listBytes padded (64 * b + q.val)

/-- The chaining state after all blocks of an explicit padded message: the buffered reading of R161 ("block b of
pad(M)"), beside the streamed one above (93_implementation_defined U9). -/
def absorbPadded (cfg : Cfg) (padded : List Byte) : Vector Word 16 :=
  (List.range (padded.length / 64)).foldl (fun h b => compress cfg h (listBlock padded b)) cfg.iv

end Sys2Proof.Machine
end

