-- ==== Sys2Proof/Machine/Operands.lean ====
section
/-! DEFINITION. The operands of the commands (R71, R73) and their checks (R201 to R203, R208). -/

namespace Sys2Proof.Machine

/-- The message length L = MLEN (R30), as a natural. -/
def msgLen (s : State) : Nat := s.mlen.toNat

/-- The bit position of AVAL, BITPOS (R30), as a natural. -/
def flipPos (s : State) : Nat := s.bitpos.toNat

/-- Byte `q` of the message of HASH: `m_q = MSG[q]` (R113). -/
def msgByte (s : State) (q : Nat) : Byte := Memory.read s.msg q

/-- Byte `q` of `Flip(M, pos)` (R170): bit `pos mod 8`, of weight 2^(pos mod 8), of byte `pos div 8` is inverted. -/
def flipByte (m : Nat → Byte) (pos q : Nat) : Byte :=
  if q = pos / 8 then m q ^^^ BitVec.twoPow 8 (pos % 8) else m q

/-- Byte `q` of the flipped copy of AVAL: the flip is on the way into the padding unit, MSG is not written (R170, R239). -/
def copyByte (s : State) (q : Nat) : Byte := flipByte (msgByte s) (flipPos s) q

/-- The length checks of HASH and AVAL, in the order of R208: LEN_OVERFLOW (R201), then MSG_RANGE (R202). -/
def lengthError (s : State) : Option CommandError :=
  if 2 ^ 61 ≤ msgLen s then some .lenOverflow
  else if s.cfg.msgCap < msgLen s then some .msgRange
  else none

/-- The checks of AVAL: the length checks, then BITPOS_RANGE (R203). -/
def avalError (s : State) : Option CommandError :=
  match lengthError s with
  | some e => some e
  | none => if 8 * msgLen s ≤ flipPos s then some .bitposRange else none

/-- The unit vector `2^i` (R9, R180) of a 5-bit index. -/
def unitWord (i : BitVec 5) : Word := BitVec.twoPow 32 i.toNat

end Sys2Proof.Machine
end

