-- ==== Sys2Proof/Machine/Hash.lean ====
section
/-! DEFINITION. The HASH command (R160). -/

namespace Sys2Proof.Machine

/-- The registers a hash computation on the bytes `m` leaves (R160): H, W and F. -/
def runPipeline (m : Nat → Byte) (s : State) : State :=
  { s with
    h := finalState s.cfg m (msgLen s)
    w := lastSchedule m (msgLen s)
    f := digestWords s.cfg m (msgLen s) }

/-- HASH (R160): the two length checks before anything is written, then the computation on `MSG[0 .. MLEN-1]`; DV is set,
or cleared by an error. -/
def execHash (s : State) : Host.Outcome State Fault Refusal :=
  match lengthError s with
  | some e => .next (raiseError .digest e s)
  | none => .next (succeed (fun st => { st with dv := true }) (runPipeline (msgByte s) s))

end Sys2Proof.Machine
end

