-- ==== Sys2Proof/Machine/Avalanche.lean ====
section
/-! DEFINITION. The avalanche tester (R170 to R174). -/

namespace Sys2Proof.Machine

/-- The number of digest bits that differ (R171). -/
def digestDistance (x y : Vector Word 8) : Nat :=
  ((List.finRange 8).map fun i => popcount (x[i] ^^^ y[i])).sum

/-- The registers the two computations of AVAL leave (R171): REF is the digest of the message, H, W and F are as the
computation on the flipped copy leaves them, AVCNT is the distance of the two digests. -/
def runAvalanche (s : State) : State :=
  { s with
    ref := digestWords s.cfg (msgByte s) (msgLen s)
    h := finalState s.cfg (copyByte s) (msgLen s)
    w := lastSchedule (copyByte s) (msgLen s)
    f := digestWords s.cfg (copyByte s) (msgLen s)
    avcnt := BitVec.ofNat 9 (digestDistance (digestWords s.cfg (msgByte s) (msgLen s))
      (digestWords s.cfg (copyByte s) (msgLen s))) }

/-- AVAL (R171): the three checks before anything is written, then the two computations; AV and DV are set, or AV is
cleared by an error. -/
def execAval (s : State) : Host.Outcome State Fault Refusal :=
  match avalError s with
  | some e => .next (raiseError .avalanche e s)
  | none => .next (succeed (fun st => { st with av := true, dv := true }) (runAvalanche s))

end Sys2Proof.Machine
end

