-- ==== Sys2Proof/Machine/Sequencer.lean ====
section
/-! DEFINITION. The sequencer of R25, one phase transition at a time: the small-step reading of HASH and AVAL beside the
meanings of Machine/Hash.lean and Machine/Avalanche.lean, which compute each command as a function (R38 allows either). -/

namespace Sys2Proof.Machine

/-- The bytes a job's padding unit reads: MSG, or the flipped copy (R113, R170). -/
def jobByte (job : Job) (s : State) : Nat → Byte :=
  match job with
  | .hash => msgByte s
  | .avalMessage => msgByte s
  | .avalCopy => copyByte s

/-- The checks of the command a job belongs to (R160, R171). -/
def jobError (job : Job) (s : State) : Option CommandError :=
  match job with
  | .hash => lengthError s
  | .avalMessage => avalError s
  | .avalCopy => avalError s

/-- The valid flag of the command a job belongs to (R204). -/
def jobFlag : Job → ResultFlag
  | .hash => .digest
  | .avalMessage => .avalanche
  | .avalCopy => .avalanche

/-- What follows FOLD2: HASH and the second computation of AVAL end their command; the first computation of AVAL leaves
its digest in REF and the second starts, from IV again (R171, R238). -/
def finishJob (job : Job) (s : State) : State :=
  match job with
  | .hash => { succeed (fun st => { st with dv := true }) s with seq := .idle }
  | .avalMessage => { s with ref := s.f, h := s.cfg.iv, seq := .load .avalCopy 0 }
  | .avalCopy =>
    { succeed (fun st => { st with av := true, dv := true })
        { s with avcnt := BitVec.ofNat 9 (digestDistance s.ref s.f) } with seq := .idle }

/-- One phase transition (R25): CHECK once, then LOAD, EXPAND, ROUND, FEED for each block in ascending order, then FOLD1
and FOLD2, then IDLE. -/
def seqStep (s : State) : State :=
  match s.seq with
  | .idle => s
  | .check job =>
    match jobError job s with
    | some e => { raiseError (jobFlag job) e s with seq := .idle }
    | none => { s with h := s.cfg.iv, seq := .load job 0 }
  | .load job blk =>
    { s with w := loadBlock s.w (block (jobByte job s) (msgLen s) blk), seq := .expand job blk 0 }
  | .expand job blk i =>
    { s with
      w := expandStep s.w i
      seq := if hi : i.val + 1 < 8 then .expand job blk ⟨i.val + 1, hi⟩ else .round job blk 0 s.h }
  | .round job blk t v =>
    let v' := blockRound s.cfg s.w v t
    { s with seq := if ht : t.val + 1 < 24 then .round job blk ⟨t.val + 1, ht⟩ v' else .feed job blk v' }
  | .feed job blk v =>
    { s with
      h := feedForward s.h v
      seq := if blk + 1 < numBlocks (msgLen s) then .load job (blk + 1)
        else .fold1 job 0 (Vector.replicate 8 0) }
  | .fold1 job i p =>
    let p' := p.set i.val (foldWord s.h i)
    if hi : i.val + 1 < 8 then { s with seq := .fold1 job ⟨i.val + 1, hi⟩ p' }
    else { s with f := p', seq := .fold2 job 0 p' }
  | .fold2 job i p =>
    let f' := pass2Step s.cfg.fold2Mode p s.f i
    if hi : i.val + 1 < 8 then { s with f := f', seq := .fold2 job ⟨i.val + 1, hi⟩ p }
    else finishJob job { s with f := f' }

/-- `n` phase transitions. -/
def seqRun : Nat → State → State
  | 0, s => s
  | n + 1, s => seqRun n (seqStep s)

/-- The number of transitions of one hash computation after CHECK (R244): per block LOAD, 8 expander steps, 24 rounds and
FEED; then 8 and 8 steps of finalization. -/
def pipelineSteps (len : Nat) : Nat := numBlocks len * (1 + 8 + 24 + 1) + 8 + 8

/-- The number of transitions of HASH: CHECK, and the computation if it passes. -/
def hashSteps (s : State) : Nat :=
  match lengthError s with
  | some _ => 1
  | none => 1 + pipelineSteps (msgLen s)

/-- The number of transitions of AVAL: CHECK, and the two computations if it passes. -/
def avalSteps (s : State) : Nat :=
  match avalError s with
  | some _ => 1
  | none => 1 + pipelineSteps (msgLen s) + pipelineSteps (msgLen s)

end Sys2Proof.Machine
end

