-- ==== Sys2Proof/Decode.lean ====
section
/-! DEFINITION. The command decoder (R70 to R78) and, after it, the encoder, both written from the formats of
30_encoding. A command word is the 32-bit data of a host write to CMD: it is taken from no memory and has no byte order
(R54, R61; DEDUCED, log entry 10). -/

namespace Sys2Proof

/-- Why a command word is refused (R75). Both reasons raise ILLEGAL_CMD. -/
inductive DecodeError where
  /-- The opcode is 0x00, 0x06 .. 0x0E or 0x10 .. 0xFF. -/
  | unassignedOpcode
  /-- A listed opcode with a 1 in a must-be-zero field. -/
  | mustBeZeroFieldSet
  deriving DecidableEq, Repr

/-- The opcode field, bits 7:0 (R70). -/
def opcodeField (c : Word) : BitVec 8 := c.extractLsb' 0 8

/-- The must-be-zero field of format N, bits 31:8 (R71). -/
def zeroFieldN (c : Word) : BitVec 24 := c.extractLsb' 8 24

/-- The index field i of format X, bits 12:8 (R72). -/
def fieldI (c : Word) : BitVec 5 := c.extractLsb' 8 5

/-- The lower must-be-zero field of format X, bits 15:13 (R72). -/
def zeroFieldXLow (c : Word) : BitVec 3 := c.extractLsb' 13 3

/-- The index field j of format X, bits 20:16 (R72). -/
def fieldJ (c : Word) : BitVec 5 := c.extractLsb' 16 5

/-- The upper must-be-zero field of format X, bits 31:21 (R72). -/
def zeroFieldXHigh (c : Word) : BitVec 11 := c.extractLsb' 21 11

/-- Format N (R71): no operand, bits 31:8 zero. -/
def decodeFormatN (c : Word) (i : Instr) : Except DecodeError Instr :=
  if zeroFieldN c = 0 then .ok i else .error .mustBeZeroFieldSet

/-- Format X (R72): two matrix indices, bits 15:13 and 31:21 zero. -/
def decodeFormatX (c : Word) : Except DecodeError Instr :=
  if zeroFieldXLow c = 0 ∧ zeroFieldXHigh c = 0 then .ok (.xcme (fieldI c) (fieldJ c))
  else .error .mustBeZeroFieldSet

/-- The decoder (R74 to R77): total on all 2^32 command words. -/
def decode (c : Word) : Except DecodeError Instr :=
  match (opcodeField c).toNat with
  | 0x01 => decodeFormatN c .hash
  | 0x02 => decodeFormatN c .aval
  | 0x03 => decodeFormatN c .xcm
  | 0x04 => decodeFormatX c
  | 0x05 => decodeFormatN c .mix
  | 0x0F => decodeFormatN c .clr
  | _ => .error .unassignedOpcode

/-- A format N word: bits 31:8 zero, the opcode in bits 7:0 (R71). -/
def encodeFormatN (op : BitVec 8) : Word := 0#24 ++ op

/-- A format X word: zero, j, zero, i, the opcode, from bit 31 down (R72). -/
def encodeFormatX (op : BitVec 8) (i j : BitVec 5) : Word := 0#11 ++ j ++ 0#3 ++ i ++ op

/-- The encoder, from the table of R74. -/
def encode : Instr → Word
  | .hash => encodeFormatN 0x01
  | .aval => encodeFormatN 0x02
  | .xcm => encodeFormatN 0x03
  | .xcme i j => encodeFormatX 0x04 i j
  | .mix => encodeFormatN 0x05
  | .clr => encodeFormatN 0x0F

/-- The match word of the row of R74 that an instruction stands in. -/
def rowMatch : Instr → Word
  | .hash => 0x00000001
  | .aval => 0x00000002
  | .xcm => 0x00000003
  | .xcme _ _ => 0x00000004
  | .mix => 0x00000005
  | .clr => 0x0000000F

/-- The mask word of the row of R74 that an instruction stands in. -/
def rowMask : Instr → Word
  | .hash => 0xFFFFFFFF
  | .aval => 0xFFFFFFFF
  | .xcm => 0xFFFFFFFF
  | .xcme _ _ => 0xFFE0E0FF
  | .mix => 0xFFFFFFFF
  | .clr => 0xFFFFFFFF

/-- The command word whose low `nbits` bits are those of `w` and whose other bits are 0. -/
def commandWordOf (nbits w : Nat) : Word := BitVec.ofNat 32 (w % 2 ^ nbits)

/-- The instruction the decoder reads from the opcode table's word `w` of `nbits` bits, none where it refuses. -/
def decodeTableWord (nbits w : Nat) : Option Instr :=
  match decode (commandWordOf nbits w) with
  | .ok i => some i
  | .error _ => none

end Sys2Proof
end

