-- ==== Sys2Proof/Machine/Clear.lean ====
section
/-! DEFINITION. The CLR command (R162). -/

namespace Sys2Proof.Machine

/-- CLR (R162): every result register and STATUS take their reset values; MLEN, BITPOS and MSG are kept. -/
def execClr (s : State) : Host.Outcome State Fault Refusal := .next (clearResults s)

end Sys2Proof.Machine
end

