-- ==== Sys2Proof/Machine/Matrix.lean ====
section
/-! DEFINITION. The XOR-cancellation matrix (R180 to R185). -/

namespace Sys2Proof.Machine

/-- `Xc(i, j)` (R180): i goes with `sigma0`, j with `sigma1`. -/
def cancelEntry (i j : BitVec 5) : Nat := popcount (sigma0 (unitWord i) ^^^ sigma1 (unitWord j))

/-- The whole matrix, entry (i, j) in row i and column j (R33, R181). -/
def cancelMatrix : Vector (Vector (BitVec 3) 32) 32 :=
  Vector.ofFn fun i : Fin 32 => Vector.ofFn fun j : Fin 32 =>
    BitVec.ofNat 3 (cancelEntry (BitVec.ofNat 5 i.val) (BitVec.ofNat 5 j.val))

/-- The least of a row's entries. -/
def cancelRowMin (i : BitVec 5) : Nat :=
  (List.range 32).foldl (fun acc j => min acc (cancelEntry i (BitVec.ofNat 5 j))) (cancelEntry i 0)

/-- `min over all i, j of Xc(i, j)` (R181). -/
def cancelMin : Nat :=
  (List.range 32).foldl (fun acc i => min acc (cancelRowMin (BitVec.ofNat 5 i))) (cancelRowMin 0)

/-- XCM (R181): the table, XMIN, XGE4 and XV. -/
def execXcm (s : State) : Host.Outcome State Fault Refusal :=
  .next (succeed (fun st => { st with xge4 := xge4Of cancelMin, xv := true })
    { s with xcm := cancelMatrix, xmin := BitVec.ofNat 3 cancelMin })

/-- XCME i, j (R183): one entry into XENT, and EV. The table is neither read nor written. -/
def execXcme (i j : BitVec 5) (s : State) : Host.Outcome State Fault Refusal :=
  .next (succeed (fun st => { st with ev := true }) { s with xent := BitVec.ofNat 3 (cancelEntry i j) })

end Sys2Proof.Machine
end

