-- ==== Sys2Proof/Machine/MixRatio.lean ====
section
/-! DEFINITION. The mix-ratio scorer (R190 to R193). -/

namespace Sys2Proof.Machine

/-- The numerator of the score (R191): the mixing count times the 24 rounds. -/
def scoreNumerator (cfg : Cfg) : Nat := cfg.mixMixOps * 24

/-- MIX (R191): the ratio, the score, MGT4 and MV, from the two configured counts alone. In a legal configuration every
number fits its register (R191). -/
def execMix (s : State) : Host.Outcome State Fault Refusal :=
  .next (succeed (fun st => { st with mgt4 := mgt4Of (scoreNumerator s.cfg) s.cfg.mixInvOps, mv := true })
    { s with
      mixnum := BitVec.ofNat 16 s.cfg.mixMixOps
      mixden := BitVec.ofNat 16 s.cfg.mixInvOps
      scorenum := BitVec.ofNat 21 (scoreNumerator s.cfg) })

end Sys2Proof.Machine
end

