-- ==== Sys2Proof/Machine/Dispatch.lean ====
section
/-! DEFINITION. One arm per command, each one call of its meaning. -/

namespace Sys2Proof.Machine

def exec (i : Instr) (s : State) : Host.Outcome State Fault Refusal :=
  match i with
  | .hash => Sys2Proof.Machine.execHash s
  | .aval => Sys2Proof.Machine.execAval s
  | .xcm => Sys2Proof.Machine.execXcm s
  | .xcme i1 j1 => Sys2Proof.Machine.execXcme i1 j1 s
  | .mix => Sys2Proof.Machine.execMix s
  | .clr => Sys2Proof.Machine.execClr s

end Sys2Proof.Machine
end

