-- ==== Sys2Proof/Machine/Transactions.lean ====
section
/-! DEFINITION. What the block does in one host operation (R20, R50 to R57, R230). -/

namespace Sys2Proof.Machine

/-- A CMD write of the word `c` (R70, R76): decode it, run its command, or raise ILLEGAL_CMD (R205). -/
def runCommand (c : Word) (s : State) : Host.Outcome State Fault Refusal :=
  match decode c with
  | .ok i => exec i s
  | .error _ => .next (raiseError .noResult .illegalCmd s)

/-- One host operation on the idle block, `rest` being the operations issued after it. Each is complete, with its answer,
before the next begins (R57). -/
def transact (op : HostOp) (rest : List HostOp) (s : State) : Host.Outcome State Fault Refusal :=
  match op with
  | .regRead a => .next (accept rest (.word (regRead a s)) s)
  | .regWrite a v =>
    if a = regAddress .cmd then runCommand v (accept rest .done s)
    else .next (regWrite a v (accept rest .done s))
  | .msgRead addr => .next (accept rest (.byte (msgRead addr s)) s)
  | .msgWrite addr b => .next (msgWrite addr b (accept rest .done s))
  | .reset => .next (resetEvent (accept rest .done s))

end Sys2Proof.Machine
end

