-- ==== Sys2Proof/Machine/Step.lean ====
section
/-! DEFINITION. One step of the machine, and where it fetches its next command. -/

namespace Sys2Proof.Machine

/-- One step. An instance with an illegal configuration is refused (R190; DESIGN CHOICE, log entry 4). A command in
progress advances by one phase transition (R25) and no host operation is taken while it runs (R57, R59). Otherwise the
oldest host operation is performed whole; with none issued the block is idle and nothing changes (R20; DEDUCED, log entry
6). -/
def step (s : State) : Host.Outcome State Fault Refusal :=
  if s.cfg.legal then
    match s.seq, s.pending with
    | .idle, [] => .next s
    | .idle, op :: rest => transact op rest s
    | _, _ => .next (seqStep s)
  else .refused .illegalConfiguration

/-- `s` with the CMD write of the table's word issued as the host's next operation, on an idle block, so that the next step
decodes and runs it (log entry 3). -/
def State.withFetchWord (s : State) (nbits w : Nat) : State :=
  { s with
    seq := .idle
    pending := .regWrite (regAddress .cmd) (commandWordOf nbits w) :: s.pending }

end Sys2Proof.Machine
end

