-- ==== Sys2Proof/Machine/Script.lean ====
section
/-! DEFINITION. The host script notation of R79 and the pseudo-operations of R80 that are transaction sequences. -/

namespace Sys2Proof.Machine

/-- `WR <reg>, <value>`. -/
def wr (r : Reg) (v : Word) : HostOp := .regWrite (regAddress r) v

/-- `RD <reg>`. -/
def rd (r : Reg) : HostOp := .regRead (regAddress r)

/-- A command as the host issues it: `WR CMD, <its word>`. -/
def issue (i : Instr) : HostOp := wr .cmd (encode i)

/-- `MSGW a, b_0` .. `MSGW a + n - 1, b_(n-1)`. -/
def storeBytes : Nat → List Byte → List HostOp
  | _, [] => []
  | a, b :: bs => .msgWrite (BitVec.ofNat 64 a) b :: storeBytes (a + 1) bs

/-- `LOADMSG <bytes>`. -/
def loadMsg (bytes : List Byte) : List HostOp :=
  storeBytes 0 bytes ++
    [wr .mlenLo (BitVec.ofNat 32 bytes.length), wr .mlenHi (BitVec.ofNat 32 (bytes.length / 2 ^ 32))]

/-- `SETPOS <p>`. -/
def setPos (p : Nat) : List HostOp :=
  [wr .bitposLo (BitVec.ofNat 32 p), wr .bitposHi (BitVec.ofNat 32 (p / 2 ^ 32))]

/-- The transactions of `hash(<bytes>)`: load, HASH, read STATUS, read the eight digest words. -/
def hashScript (bytes : List Byte) : List HostOp :=
  loadMsg bytes ++ [issue .hash, rd .status] ++ (List.finRange 8).map fun i => rd (.digest i)

/-- The transactions of `avalanche(<bytes>, <p>)`: load, set the position, AVAL, read STATUS and AVCNT. -/
def avalancheScript (bytes : List Byte) (p : Nat) : List HostOp :=
  loadMsg bytes ++ setPos p ++ [issue .aval, rd .status, rd .avcnt]

end Sys2Proof.Machine
end

