-- ==== Sys2Proof/Safety.lean ====
section
/-! DEFINITION. What the statements call a consistent state and a safe run. -/

namespace Sys2Proof.Machine

/-- The message memory is in its canonical form and lists only addresses that exist (R37). -/
def State.memoryCanonical (s : State) : Prop :=
  Memory.wf s.msg = true ∧ Memory.within s.cfg.msgCap s.msg = true

/-- While DV is 1, F is the digest finalization makes of H, and `W[16..23]` follow from the rest of W by the recurrence of
the expander (R21, R22, R36: "F holds the digest of a completed hash computation"). -/
def State.digestConsistent (s : State) : Prop :=
  s.status.dv = true → s.f = finalize s.cfg s.h ∧ ∀ i : Fin 8, s.w[16 + i.val] = expandedWord s.w i

/-- XV, XCM, XMIN and XGE4 hold the matrix together or nothing together (R33, R34, R36). -/
def State.matrixConsistent (s : State) : Prop :=
  (s.status.xv = true ∧ s.xcm = cancelMatrix ∧ s.xmin = BitVec.ofNat 3 cancelMin ∧ s.status.xge4 = xge4Of cancelMin) ∨
  (s.status.xv = false ∧ s.xcm = Vector.replicate 32 (Vector.replicate 32 0) ∧ s.xmin = 0 ∧ s.status.xge4 = false)

/-- EV and XENT hold an entry of the matrix together or nothing together (R34, R36). -/
def State.entryConsistent (s : State) : Prop :=
  (s.status.ev = true ∧ ∃ i j, s.xent = BitVec.ofNat 3 (cancelEntry i j)) ∨ (s.status.ev = false ∧ s.xent = 0)

/-- MV, MGT4 and the three mix registers hold the result of the configuration together or nothing together (R35, R36). -/
def State.mixConsistent (s : State) : Prop :=
  (s.status.mv = true ∧ s.mixnum.toNat = s.cfg.mixMixOps ∧ s.mixden.toNat = s.cfg.mixInvOps ∧
    s.scorenum.toNat = 24 * s.cfg.mixMixOps ∧
    (s.status.mgt4 = true ↔ 4 * s.cfg.mixInvOps < 24 * s.cfg.mixMixOps)) ∨
  (s.status.mv = false ∧ s.mixnum = 0 ∧ s.mixden = 0 ∧ s.scorenum = 0 ∧ s.status.mgt4 = false)

/-- ERRCODE is one of the codes of R200 ("5 .. 15 reserved: never produced"). -/
def State.errcodeLegal (s : State) : Prop := s.status.errcode.toNat ≤ 4

/-- AVCNT counts at most the 256 digest bits (R32). -/
def State.countLegal (s : State) : Prop := s.avcnt.toNat ≤ 256

/-- The invariant of the idle block: what holds between any two host operations of a legal instance. -/
structure State.Consistent (s : State) : Prop where
  /-- Between commands the sequencer is IDLE (R25). -/
  idle : s.seq = .idle
  /-- MSG. -/
  memory : s.memoryCanonical
  /-- DV, F, H and W. -/
  digest : s.digestConsistent
  /-- XV, XGE4, XCM and XMIN. -/
  matrix : s.matrixConsistent
  /-- EV and XENT. -/
  entry : s.entryConsistent
  /-- MV, MGT4, MIXNUM, MIXDEN and SCORENUM. -/
  mix : s.mixConsistent
  /-- ERRCODE. -/
  errcode : s.errcodeLegal
  /-- AVCNT. -/
  count : s.countLegal

/-- A run of `n` steps that ends in neither a fault nor a refusal. -/
def safeFor (n : Nat) (s : State) : Prop := ∃ t, Sys2Proof.core.run n s = .next t

end Sys2Proof.Machine
end

