-- ==== Sys2Proof/Certificates/Slice0/Obligations.lean ====
section
/-! DEFINITION. The statements for the provers, each a `def Obligations.<Name> : Prop`; OBLIGATIONS.json lists them with the
rules they rest on. A statement about a step takes the host's operation from the queue `State.pending` and leaves its answer
in `State.response`: these two fields are the model's own (log entry 3), whatever rule the statement cites for the rest. -/

open Sys2Proof Sys2Proof.Machine

/-! ### The command encoding (30_encoding) -/

/-- R70 to R74: every command, with every value of its operands, decodes from the word the table gives it. -/
def Obligations.DecodeOfEncode : Prop :=
  ∀ i : Instr, i.wellFormed = true → decode (encode i) = .ok i

/-- R74, R75: a word that decodes is the encoding of what it decodes to, so no bit of a command word is ignored. -/
def Obligations.EncodeOfDecode : Prop :=
  ∀ (c : Word) (i : Instr), decode c = .ok i → encode i = c

/-- R74, R75: the decoder accepts a word exactly when it matches a row of the table, and then it answers an instruction of
that row, and no word matches two rows. -/
def Obligations.DecoderFollowsTable : Prop :=
  (∀ (c : Word) (i : Instr), decode c = .ok i → c &&& rowMask i = rowMatch i) ∧
  (∀ c : Word, (∃ e, decode c = .error e) ↔ ∀ i : Instr, c &&& rowMask i ≠ rowMatch i) ∧
  (∀ (c : Word) (i j : Instr), c &&& rowMask i = rowMatch i → c &&& rowMask j = rowMatch j → rowMatch i = rowMatch j)

/-- 95_test_vectors section 11: words written out from the encodings of R71, R72 and R74, and words R75 refuses. -/
def Obligations.DecodesWrittenWords : Prop :=
  decode 0x00000001 = .ok .hash ∧ decode 0x00000002 = .ok .aval ∧ decode 0x00000003 = .ok .xcm ∧
  decode 0x00030004 = .ok (.xcme 0 3) ∧ decode 0x00001F04 = .ok (.xcme 31 0) ∧
  decode 0x001F1F04 = .ok (.xcme 31 31) ∧ decode 0x00000005 = .ok .mix ∧ decode 0x0000000F = .ok .clr ∧
  decode 0x00000000 = .error .unassignedOpcode ∧ decode 0x00000101 = .error .mustBeZeroFieldSet ∧
  decode 0x00002004 = .error .mustBeZeroFieldSet ∧ decode 0x00200004 = .error .mustBeZeroFieldSet

/-! ### The register port (10_state, 20_memory) -/

/-- R29: the register map and the addresses of the registers are inverse to each other. -/
def Obligations.RegisterMapRoundTrip : Prop :=
  (∀ r : Reg, regAt (regAddress r) = some r) ∧ (∀ (a : BitVec 11) (r : Reg), regAt a = some r → regAddress r = a)

/-- R78: reserved addresses read 0 and ignore writes, writes to read-only registers are ignored, reserved bits of STATUS
read 0. A write to CMD is a command, and the four halves of MLEN and BITPOS are the registers that can be written. -/
def Obligations.ReservedAndReadOnlyIgnored : Prop :=
  (∀ (a : BitVec 11) (s : State),
    a.toNat = 0x00E ∨ a.toNat = 0x00F ∨ (0x030 ≤ a.toNat ∧ a.toNat ≤ 0x03F) ∨ (0x058 ≤ a.toNat ∧ a.toNat ≤ 0x05F) ∨
      (0x078 ≤ a.toNat ∧ a.toNat ≤ 0x07F) ∨ (0x090 ≤ a.toNat ∧ a.toNat ≤ 0x3FF) → regRead a s = 0) ∧
  (∀ (a : BitVec 11) (v : Word) (s : State) (rest : List HostOp), s.cfg.legal = true → s.seq = .idle →
    s.pending = .regWrite a v :: rest → a.toNat ≠ 0x000 → ¬ (0x002 ≤ a.toNat ∧ a.toNat ≤ 0x005) →
    step s = .next { s with pending := rest, response := .done }) ∧
  (∀ (s : State) (k : Nat), k = 7 ∨ 12 ≤ k → (regRead 0x001 s).getLsbD k = false)

/-- R36: STATUS reads as its fields at their bit positions. -/
def Obligations.StatusReadsItsFields : Prop :=
  ∀ s : State,
    (regRead 0x001 s).getLsbD 0 = s.status.dv ∧ (regRead 0x001 s).getLsbD 1 = s.status.av ∧
    (regRead 0x001 s).getLsbD 2 = s.status.xv ∧ (regRead 0x001 s).getLsbD 3 = s.status.ev ∧
    (regRead 0x001 s).getLsbD 4 = s.status.mv ∧ (regRead 0x001 s).getLsbD 5 = s.status.xge4 ∧
    (regRead 0x001 s).getLsbD 6 = s.status.mgt4 ∧ (regRead 0x001 s).extractLsb' 8 4 = s.status.errcode

/-- R29, R56: what every other register of the map reads as, narrow registers zero-extended and CMD as 0. -/
def Obligations.RegReadReturnsRegister : Prop :=
  ∀ s : State, s.cfg.legal = true →
    regRead 0x000 s = 0 ∧
    (regRead 0x003 s).toNat * 2 ^ 32 + (regRead 0x002 s).toNat = s.mlen.toNat ∧
    (regRead 0x005 s).toNat * 2 ^ 32 + (regRead 0x004 s).toNat = s.bitpos.toNat ∧
    (regRead 0x006 s).toNat = s.avcnt.toNat ∧ (regRead 0x007 s).toNat = s.xmin.toNat ∧
    (regRead 0x008 s).toNat = s.xent.toNat ∧ (regRead 0x009 s).toNat = s.mixnum.toNat ∧
    (regRead 0x00A s).toNat = s.mixden.toNat ∧ (regRead 0x00B s).toNat = s.scorenum.toNat ∧
    (regRead 0x00D s).toNat * 2 ^ 32 + (regRead 0x00C s).toNat = s.cfg.msgCap ∧
    (∀ i : Fin 8, regRead (BitVec.ofNat 11 (0x010 + i.val)) s = s.f[i]) ∧
    (∀ i : Fin 8, regRead (BitVec.ofNat 11 (0x018 + i.val)) s = s.ref[i]) ∧
    (∀ x : Fin 16, regRead (BitVec.ofNat 11 (0x020 + x.val)) s = s.h[x]) ∧
    (∀ i : Fin 24, regRead (BitVec.ofNat 11 (0x040 + i.val)) s = s.w[i]) ∧
    (∀ t : Fin 24, regRead (BitVec.ofNat 11 (0x060 + t.val)) s = s.cfg.k[t]) ∧
    (∀ x : Fin 16, regRead (BitVec.ofNat 11 (0x080 + x.val)) s = s.cfg.iv[x]) ∧
    (∀ i j : Fin 32, (regRead (BitVec.ofNat 11 (0x400 + 32 * i.val + j.val)) s).toNat = s.xcm[i][j].toNat)

/-- R56: a `RegRead` answers the register and changes nothing in the block. -/
def Obligations.RegReadHasNoSideEffect : Prop :=
  ∀ (s : State) (a : BitVec 11) (rest : List HostOp), s.cfg.legal = true → s.seq = .idle →
    s.pending = .regRead a :: rest →
    step s = .next { s with pending := rest, response := .word (regRead a s) }

/-- R30, R56: a write to one of the four halves replaces the 32 bits named, leaves the other half, and changes nothing
else. -/
def Obligations.RegWriteReplacesHalf : Prop :=
  ∀ (s : State) (a : BitVec 11) (v : Word) (rest : List HostOp), s.cfg.legal = true → s.seq = .idle →
    s.pending = .regWrite a v :: rest →
    (a = 0x002 → ∃ x : BitVec 64, x.toNat = s.mlen.toNat / 2 ^ 32 * 2 ^ 32 + v.toNat ∧
      step s = .next { s with mlen := x, pending := rest, response := .done }) ∧
    (a = 0x003 → ∃ x : BitVec 64, x.toNat = v.toNat * 2 ^ 32 + s.mlen.toNat % 2 ^ 32 ∧
      step s = .next { s with mlen := x, pending := rest, response := .done }) ∧
    (a = 0x004 → ∃ x : BitVec 64, x.toNat = s.bitpos.toNat / 2 ^ 32 * 2 ^ 32 + v.toNat ∧
      step s = .next { s with bitpos := x, pending := rest, response := .done }) ∧
    (a = 0x005 → ∃ x : BitVec 64, x.toNat = v.toNat * 2 ^ 32 + s.bitpos.toNat % 2 ^ 32 ∧
      step s = .next { s with bitpos := x, pending := rest, response := .done })

/-! ### The message port (20_memory) -/

/-- R53: a `MsgWrite` below MSG_CAP writes that byte and no other, at or beyond MSG_CAP it writes nothing, it changes
nothing else, and no command writes MSG. -/
def Obligations.MsgWriteWritesOneByte : Prop :=
  (∀ (s : State) (addr : BitVec 64) (b : Byte) (rest : List HostOp), s.cfg.legal = true → s.seq = .idle →
    s.pending = .msgWrite addr b :: rest →
    ∃ m : Memory,
      step s = .next { s with msg := m, pending := rest, response := .done } ∧
      (addr.toNat < s.cfg.msgCap → Memory.read m addr.toNat = b ∧
        ∀ x : Nat, x ≠ addr.toNat → Memory.read m x = Memory.read s.msg x) ∧
      (s.cfg.msgCap ≤ addr.toNat → m = s.msg)) ∧
  (∀ (i : Instr) (s t : State), exec i s = .next t → t.msg = s.msg ∧ ∀ x : Nat, Memory.read t.msg x = Memory.read s.msg x)

/-- R52, R57: a `MsgRead` answers the byte below MSG_CAP and 0 at or beyond it, and changes nothing in the block. -/
def Obligations.MsgReadReturnsByte : Prop :=
  ∀ (s : State) (addr : BitVec 64) (rest : List HostOp), s.cfg.legal = true → s.seq = .idle →
    s.pending = .msgRead addr :: rest →
    step s = .next { s with
      pending := rest
      response := .byte (if addr.toNat < s.cfg.msgCap then Memory.read s.msg addr.toNat else 0) }

/-- The model's representation (R37): two memories in the canonical form that read alike are the same data. -/
def Obligations.CanonicalMemoryIsUnique : Prop :=
  ∀ m m' : Memory, Memory.wf m = true → Memory.wf m' = true →
    (∀ a : Nat, Memory.read m a = Memory.read m' a) → m = m'

/-! ### The step -/

/-- R70, R76: when the host's next operation is a CMD write whose word decodes to `i`, the step is `exec i` on the state
with that operation taken off the queue and answered. -/
def Obligations.StepRunsDecodedCommand : Prop :=
  ∀ (s : State) (c : Word) (rest : List HostOp) (i : Instr), s.cfg.legal = true → s.seq = .idle →
    s.pending = .regWrite 0x000 c :: rest → decode c = .ok i → i.wellFormed = true →
    step s = exec i { s with pending := rest, response := .done }

/-- R205: a CMD write whose word matches no row sets ERRCODE = 1 and changes nothing else. -/
def Obligations.IllegalCommandSetsErrcodeOnly : Prop :=
  ∀ (s : State) (c : Word) (rest : List HostOp), s.cfg.legal = true → s.seq = .idle →
    s.pending = .regWrite 0x000 c :: rest → (∀ i : Instr, c &&& rowMask i ≠ rowMatch i) →
    step s = .next { s with
      status := { s.status with errcode := 1 }
      pending := rest
      response := .done }

/-- R20: with no host operation issued the block is idle; that a step then answers the same state is the model's choice
(log entry 6), as the queue of issued operations is (log entry 3). -/
def Obligations.IdleBlockChangesNothing : Prop :=
  ∀ s : State, s.cfg.legal = true → s.seq = .idle → s.pending = [] → step s = .next s

/-- R190, 93_implementation_defined U5: the model refuses an illegal configuration. That it refuses every step of one is
the model's choice (log entry 4). -/
def Obligations.IllegalConfigurationIsRefused : Prop :=
  ∀ s : State,
    s.cfg.mixInvOps = 0 ∨ 2 ^ 16 ≤ s.cfg.mixInvOps ∨ 2 ^ 16 ≤ s.cfg.mixMixOps ∨ 2 ^ 64 ≤ s.cfg.msgCap →
    step s = .refused .illegalConfiguration

/-- R25, R57: while a command is in progress the step is one transition of the sequencer and takes no host operation. The
step-wise reading is the model's (log entry 5). -/
def Obligations.BusyStepAdvancesSequencer : Prop :=
  ∀ s : State, s.cfg.legal = true → s.seq ≠ .idle →
    step s = .next (seqStep s) ∧ (seqStep s).pending = s.pending ∧ (seqStep s).response = s.response ∧
    (seqStep s).msg = s.msg ∧ (seqStep s).mlen = s.mlen ∧ (seqStep s).bitpos = s.bitpos ∧ (seqStep s).cfg = s.cfg

/-- R204, R209: no step of a legal instance faults or is refused, and no step changes the configuration (R26). -/
def Obligations.LegalStepCompletes : Prop :=
  ∀ s : State, s.cfg.legal = true → ∃ t : State, step s = .next t ∧ t.cfg = s.cfg

/-- R204, R209, R244: a legal instance runs for ever, whatever the host issues: no run of any length from any state ends
in a fault or a refusal, and the configuration is never written. -/
def Obligations.LegalRunIsSafe : Prop :=
  ∀ (n : Nat) (s : State), s.cfg.legal = true →
    safeFor n s ∧ ∀ t : State, Sys2Proof.core.run n s = .next t → t.cfg = s.cfg

/-! ### Reset and CLR (R40, R162, R230, R231) -/

/-- R230, R40: the reset event puts every register at its reset value and the sequencer at IDLE, and keeps MSG and the
configuration, hence K, IV, CAP_LO and CAP_HI. -/
def Obligations.ResetEventResetsRegisters : Prop :=
  ∀ (s : State) (rest : List HostOp), s.cfg.legal = true → s.seq = .idle → s.pending = .reset :: rest →
    step s = .next
      { cfg := s.cfg, msg := s.msg, mlen := 0, bitpos := 0,
        status := ⟨false, false, false, false, false, false, false, 0⟩,
        h := Vector.replicate 16 0, w := Vector.replicate 24 0, f := Vector.replicate 8 0,
        ref := Vector.replicate 8 0, avcnt := 0, xcm := Vector.replicate 32 (Vector.replicate 32 0), xmin := 0,
        xent := 0, mixnum := 0, mixden := 0, scorenum := 0, seq := .idle, pending := rest, response := .done }

/-- R40: the state after power-on reads 0 in every register but the constants: STATUS, MLEN, BITPOS and every result
register, for every configuration and every content of MSG. -/
def Obligations.PowerOnRegistersReadZero : Prop :=
  ∀ (cfg : Cfg) (msg : Memory) (a : BitVec 11),
    ¬ (a.toNat = 0x00C ∨ a.toNat = 0x00D ∨ (0x060 ≤ a.toNat ∧ a.toNat ≤ 0x08F)) →
    regRead a (State.powerOn cfg msg) = 0

/-- R162: CLR, the command word 0x0F, gives every result register and STATUS its reset value and keeps everything else. -/
def Obligations.ClrClearsResults : Prop :=
  decode 0x0000000F = .ok .clr ∧ ∀ s : State, exec .clr s = .next
    { s with
      status := ⟨false, false, false, false, false, false, false, 0⟩
      h := Vector.replicate 16 0, w := Vector.replicate 24 0, f := Vector.replicate 8 0,
      ref := Vector.replicate 8 0, avcnt := 0, xcm := Vector.replicate 32 (Vector.replicate 32 0), xmin := 0,
      xent := 0, mixnum := 0, mixden := 0, scorenum := 0 }

/-- R231: CLR differs from reset in MLEN and BITPOS only, and power-on differs from reset in MSG only (both on an idle
block; the two host-side fields are the model's own). -/
def Obligations.ClrResetAndPowerOnDifferInOnePoint : Prop :=
  (∀ s t : State, s.seq = .idle → exec .clr s = .next t → resetEvent s = { t with mlen := 0, bitpos := 0 }) ∧
  (∀ (s : State) (msg : Memory),
    { resetEvent s with msg := msg } =
      { State.powerOn s.cfg msg with pending := s.pending, response := s.response })

/-! ### HASH (45_hash_command) -/

/-- R160: HASH whole: its word, the chaining from IV block by block, the two checks in their order, each with its effect,
and otherwise the computation, with everything it writes and nothing else. -/
def Obligations.HashComputesDigest : Prop :=
  decode 0x00000001 = .ok .hash ∧
  (∀ (cfg : Cfg) (m : Nat → Byte) (len : Nat), chain cfg m len 0 = cfg.iv ∧
    ∀ b : Nat, chain cfg m len (b + 1) = compress cfg (chain cfg m len b) (block m len b)) ∧
  ∀ s : State, exec .hash s = .next
    (if 2 ^ 61 ≤ s.mlen.toNat then { s with status := { s.status with dv := false, errcode := 2 } }
     else if s.cfg.msgCap < s.mlen.toNat then { s with status := { s.status with dv := false, errcode := 3 } }
     else
      { s with
        h := chain s.cfg (Memory.read s.msg) s.mlen.toNat ((s.mlen.toNat + 8) / 64 + 1)
        w := schedule (block (Memory.read s.msg) s.mlen.toNat ((s.mlen.toNat + 8) / 64))
        f := finalize s.cfg (chain s.cfg (Memory.read s.msg) s.mlen.toNat ((s.mlen.toNat + 8) / 64 + 1))
        status := { s.status with dv := true, errcode := 0 } })

/-- 95_test_vectors S1, R156: under the default constants and INPLACE the empty message has the digest the source
prints. -/
def Obligations.EmptyMessageKnownAnswer : Prop :=
  ∀ s t : State, s.cfg.k = Config.defaultK → s.cfg.iv = Config.defaultIV → s.cfg.fold2Mode = .inplace → s.mlen = 0 →
    exec .hash s = .next t →
    t.f = #v[0x9565fdf9, 0x1892f8fa, 0xc45f0772, 0x3b618632, 0xc210992b, 0xa29f66c0, 0x2d85c95b, 0xefccf88a]

/-- R12, R161: the digest is a function of the configuration, of MLEN and of the message bytes alone: two states that
agree on these and differ in anything else agree in F, H and W after HASH, and bytes at and beyond MLEN have no
influence. -/
def Obligations.DigestDependsOnMessageOnly : Prop :=
  ∀ s t s' t' : State, s.cfg = t.cfg → s.mlen = t.mlen →
    (∀ q : Nat, q < s.mlen.toNat → Memory.read s.msg q = Memory.read t.msg q) →
    exec .hash s = .next s' → exec .hash t = .next t' →
    s'.status.errcode = t'.status.errcode ∧ s'.status.dv = t'.status.dv ∧
    (s'.status.errcode = 0 → s'.f = t'.f ∧ s'.h = t'.h ∧ s'.w = t'.w)

/-- R161, R173, R193: a command issued again with nothing changed between leaves the state as it is. -/
def Obligations.CommandsAreRepeatable : Prop :=
  ∀ (i : Instr) (s t : State), exec i s = .next t → exec i t = .next t

/-- R161, R113: the streamed computation on a message gives the digest of the explicit padded message `pad(M)` taken block
by block. -/
def Obligations.StreamedHashEqualsBufferedHash : Prop :=
  ∀ (cfg : Cfg) (msg : List Byte), msg.length < 2 ^ 61 →
    digestWords cfg (listBytes msg) msg.length = finalize cfg (absorbPadded cfg (pad msg))

/-- R25, R160: the sequencer, started at CHECK, ends IDLE in exactly the state HASH leaves, after one transition if a check
fails and after 1 + 34 NB + 16 if none does. The step-wise reading is the model's (log entry 5). -/
def Obligations.SequencerRunsHash : Prop :=
  ∀ s : State, s.seq = .idle →
    exec .hash s = .next (seqRun
      (if s.mlen.toNat < 2 ^ 61 ∧ s.mlen.toNat ≤ s.cfg.msgCap then 1 + (34 * numBlocks s.mlen.toNat + 16) else 1)
      { s with seq := .check .hash })

/-- R80, R79: after `LOADMSG <bytes>` and HASH, issued on an idle block with room for the message, F is the digest of
those bytes. -/
def Obligations.LoadedMessageHashesToItsDigest : Prop :=
  ∀ (s : State) (bytes : List Byte) (rest : List HostOp), s.cfg.legal = true → s.seq = .idle →
    bytes.length < 2 ^ 61 → bytes.length ≤ s.cfg.msgCap →
    s.pending = loadMsg bytes ++ issue .hash :: rest →
    ∃ t : State, Sys2Proof.core.run (bytes.length + 3) s = .next t ∧
      digestBytes t.f = hashOfList s.cfg bytes ∧ t.status.dv = true ∧ t.status.errcode = 0 ∧
      t.mlen.toNat = bytes.length ∧ t.pending = rest

/-! ### AVAL (46_avalanche_tester) -/

/-- R171: AVAL whole: its word, the three checks in their order, each with its effect, and otherwise the two computations, with
everything they write and nothing else. -/
def Obligations.AvalComputesAvalanche : Prop :=
  decode 0x00000002 = .ok .aval ∧ ∀ s : State,
    let flipped : Nat → Byte := fun q =>
      if q = s.bitpos.toNat / 8 then Memory.read s.msg q ^^^ BitVec.twoPow 8 (s.bitpos.toNat % 8)
      else Memory.read s.msg q
    exec .aval s = .next
      (if 2 ^ 61 ≤ s.mlen.toNat then { s with status := { s.status with av := false, errcode := 2 } }
       else if s.cfg.msgCap < s.mlen.toNat then { s with status := { s.status with av := false, errcode := 3 } }
       else if 8 * s.mlen.toNat ≤ s.bitpos.toNat then { s with status := { s.status with av := false, errcode := 4 } }
       else
        { s with
          ref := finalize s.cfg (chain s.cfg (Memory.read s.msg) s.mlen.toNat ((s.mlen.toNat + 8) / 64 + 1))
          h := chain s.cfg flipped s.mlen.toNat ((s.mlen.toNat + 8) / 64 + 1)
          w := schedule (block flipped s.mlen.toNat ((s.mlen.toNat + 8) / 64))
          f := finalize s.cfg (chain s.cfg flipped s.mlen.toNat ((s.mlen.toNat + 8) / 64 + 1))
          avcnt := BitVec.ofNat 9 (digestDistance
            (finalize s.cfg (chain s.cfg (Memory.read s.msg) s.mlen.toNat ((s.mlen.toNat + 8) / 64 + 1)))
            (finalize s.cfg (chain s.cfg flipped s.mlen.toNat ((s.mlen.toNat + 8) / 64 + 1))))
          status := { s.status with av := true, dv := true, errcode := 0 } })

/-- R172, R173 (c): AVCNT is the number of the 256 digest bits in which REF and F differ, and is 0 only if the two digests
are equal. -/
def Obligations.AvcntCountsDifferingBits : Prop :=
  ∀ s t : State, exec .aval s = .next t → t.status.errcode = 0 →
    t.avcnt.toNat =
      ((List.finRange 8).map fun i => (List.range 32).countP fun k => t.ref[i].getLsbD k != t.f[i].getLsbD k).sum ∧
    t.avcnt.toNat ≤ 256 ∧ (t.avcnt = 0 ↔ t.ref = t.f)

/-- R173 (b): REF after AVAL is the F that HASH gives on the same message. -/
def Obligations.AvalRefIsHashDigest : Prop :=
  ∀ s a b : State, exec .aval s = .next a → a.status.errcode = 0 → exec .hash s = .next b →
    b.status.errcode = 0 ∧ a.ref = b.f

/-- R170, R241: the H, W and F that AVAL leaves are those HASH gives after the host itself flips the bit in MSG. -/
def Obligations.AvalCopyIsHostFlippedMessage : Prop :=
  ∀ s a b : State, exec .aval s = .next a → a.status.errcode = 0 →
    exec .hash (msgWrite (BitVec.ofNat 64 (s.bitpos.toNat / 8))
      (Memory.read s.msg (s.bitpos.toNat / 8) ^^^ BitVec.twoPow 8 (s.bitpos.toNat % 8)) s) = .next b →
    a.f = b.f ∧ a.h = b.h ∧ a.w = b.w

/-- R173 (d), R203: with an empty message AVAL raises BITPOS_RANGE for every position and changes AV and ERRCODE alone. -/
def Obligations.AvalOnEmptyMessageIsBitposRange : Prop :=
  ∀ s : State, s.mlen = 0 → exec .aval s = .next { s with status := { s.status with av := false, errcode := 4 } }

/-- R25, R171: the sequencer, started at CHECK for AVAL, ends IDLE in exactly the state AVAL leaves, after one transition
if a check fails and after 1 + 2 (34 NB + 16) if none does. The step-wise reading is the model's (log entry 5). -/
def Obligations.SequencerRunsAval : Prop :=
  ∀ s : State, s.seq = .idle →
    exec .aval s = .next (seqRun
      (if s.mlen.toNat < 2 ^ 61 ∧ s.mlen.toNat ≤ s.cfg.msgCap ∧ s.bitpos.toNat < 8 * s.mlen.toNat
        then 1 + 2 * (34 * numBlocks s.mlen.toNat + 16) else 1)
      { s with seq := .check .avalMessage })

/-! ### All commands -/

/-- R30, R26, R53, R57: no command changes MLEN, BITPOS, the configuration or a byte of MSG, and none touches the host's
queue, its answer or the idle sequencer. -/
def Obligations.CommandsKeepOperandsAndMessage : Prop :=
  ∀ (i : Instr) (s t : State), exec i s = .next t →
    t.mlen = s.mlen ∧ t.bitpos = s.bitpos ∧ t.cfg = s.cfg ∧ t.seq = s.seq ∧ t.pending = s.pending ∧
    t.response = s.response ∧ (∀ a : Nat, Memory.read t.msg a = Memory.read s.msg a) ∧ t.msg = s.msg

/-- R200, R208, R210: what ERRCODE reports after each command: the first check that fails, or 0. -/
def Obligations.EveryCommandReportsItsOutcome : Prop :=
  ∀ (i : Instr) (s t : State), exec i s = .next t →
    t.status.errcode =
      (match i with
       | .hash => if 2 ^ 61 ≤ s.mlen.toNat then 2 else if s.cfg.msgCap < s.mlen.toNat then 3 else 0
       | .aval => if 2 ^ 61 ≤ s.mlen.toNat then 2 else if s.cfg.msgCap < s.mlen.toNat then 3
           else if 8 * s.mlen.toNat ≤ s.bitpos.toNat then 4 else 0
       | .xcm => 0
       | .xcme _ _ => 0
       | .mix => 0
       | .clr => 0)

/-- R204: a command that fails is HASH or AVAL, and changes ERRCODE and the valid flag of its own result, nothing else. -/
def Obligations.FailedCommandKeepsResults : Prop :=
  ∀ (i : Instr) (s t : State), exec i s = .next t → t.status.errcode ≠ 0 →
    (i = .hash ∧ t = { s with status := { s.status with dv := false, errcode := t.status.errcode } }) ∨
    (i = .aval ∧ t = { s with status := { s.status with av := false, errcode := t.status.errcode } })

/-- R39: no command reads a result left by an earlier one: on two states with the same operands, message and configuration
a command leaves the same in every register it writes, whatever the result registers held. -/
def Obligations.ResultsDoNotFeedBack : Prop :=
  ∀ (i : Instr) (s s' t t' : State), s.cfg = s'.cfg → s.mlen = s'.mlen → s.bitpos = s'.bitpos → s.msg = s'.msg →
    exec i s = .next t → exec i s' = .next t' → t.status.errcode = t'.status.errcode ∧
    (t.status.errcode = 0 →
      (i = .hash → t.f = t'.f ∧ t.h = t'.h ∧ t.w = t'.w) ∧
      (i = .aval → t.f = t'.f ∧ t.h = t'.h ∧ t.w = t'.w ∧ t.ref = t'.ref ∧ t.avcnt = t'.avcnt) ∧
      (i = .xcm → t.xcm = t'.xcm ∧ t.xmin = t'.xmin ∧ t.status.xge4 = t'.status.xge4) ∧
      (∀ a b, i = .xcme a b → t.xent = t'.xent) ∧
      (i = .mix → t.mixnum = t'.mixnum ∧ t.mixden = t'.mixden ∧ t.scorenum = t'.scorenum ∧
        t.status.mgt4 = t'.status.mgt4) ∧
      (i = .clr → t.status = t'.status ∧ t.f = t'.f ∧ t.h = t'.h ∧ t.w = t'.w ∧ t.ref = t'.ref ∧
        t.avcnt = t'.avcnt ∧ t.xcm = t'.xcm ∧ t.xmin = t'.xmin ∧ t.xent = t'.xent ∧ t.mixnum = t'.mixnum ∧
        t.mixden = t'.mixden ∧ t.scorenum = t'.scorenum))

/-! ### XCM and XCME (47_xor_cancellation_matrix) -/

/-- R181: XCM, the command word 3, writes the 1024 entries, their minimum, XGE4 and XV, and nothing else. -/
def Obligations.XcmFillsMatrix : Prop :=
  decode 0x00000003 = .ok .xcm ∧ ∀ s : State, ∃ t : State, exec .xcm s = .next t ∧
    (∀ i j : Fin 32, t.xcm[i][j].toNat = popcount (sigma0 (BitVec.twoPow 32 i.val) ^^^ sigma1 (BitVec.twoPow 32 j.val))) ∧
    (∀ i j : Fin 32, t.xmin.toNat ≤ t.xcm[i][j].toNat) ∧ (∃ i j : Fin 32, t.xmin.toNat = t.xcm[i][j].toNat) ∧
    (t.status.xge4 = true ↔ 4 ≤ t.xmin.toNat) ∧
    t = { s with
      xcm := t.xcm
      xmin := t.xmin
      status := { s.status with xge4 := t.status.xge4, xv := true, errcode := 0 } }

/-- R184: the values of the matrix, and XMIN = 4 with XGE4 = 1 after XCM for every configuration. -/
def Obligations.MatrixValues : Prop :=
  (∀ i j : BitVec 5, popcount (sigma0 (BitVec.twoPow 32 i.toNat) ^^^ sigma1 (BitVec.twoPow 32 j.toNat)) =
    if (j - i).toNat ∈ [3, 4, 9, 12, 16, 21, 23, 25, 30] then 4 else 6) ∧
  (∀ s t : State, exec .xcm s = .next t → t.xmin = 4 ∧ t.status.xge4 = true)

/-- R183: the command words of XCME; XCME writes the one entry, EV and ERRCODE, and nothing else, for every pair of
indices and every state; a word with its opcode and a 1 in a must-be-zero field is an illegal command. -/
def Obligations.XcmeComputesEntry : Prop :=
  (∀ i j : BitVec 5, decode (BitVec.ofNat 32 (4 + i.toNat * 2 ^ 8 + j.toNat * 2 ^ 16)) = .ok (.xcme i j)) ∧
  (∀ (s : State) (i j : BitVec 5), ∃ x : BitVec 3,
    x.toNat = popcount (sigma0 (BitVec.twoPow 32 i.toNat) ^^^ sigma1 (BitVec.twoPow 32 j.toNat)) ∧
    exec (.xcme i j) s = .next { s with xent := x, status := { s.status with ev := true, errcode := 0 } }) ∧
  (∀ (s : State) (c : Word), c.toNat % 2 ^ 8 = 4 → c &&& 0xFFE0E0FF ≠ 4 →
    runCommand c s = .next { s with status := { s.status with errcode := 1 } })

/-! ### MIX (48_mix_ratio_scorer) -/

/-- R191, R192: MIX, the command word 5, writes the two configured counts, 24 times the mixing count, MGT4 by the exact comparison, MV and
ERRCODE, and nothing else, in every legal configuration. -/
def Obligations.MixReportsConfiguredRatio : Prop :=
  decode 0x00000005 = .ok .mix ∧ ∀ s : State, s.cfg.legal = true → ∃ t : State, exec .mix s = .next t ∧
    t.mixnum.toNat = s.cfg.mixMixOps ∧ t.mixden.toNat = s.cfg.mixInvOps ∧ t.scorenum.toNat = s.cfg.mixMixOps * 24 ∧
    (t.status.mgt4 = true ↔ s.cfg.mixMixOps * 24 > 4 * s.cfg.mixInvOps) ∧
    t = { s with
      mixnum := t.mixnum, mixden := t.mixden, scorenum := t.scorenum,
      status := { s.status with mgt4 := t.status.mgt4, mv := true, errcode := 0 } }

/-! ### The word primitives (40_word_primitives) -/

/-- R90, R91, R92: the rotations and the shift by their arithmetic definitions, for every amount of their domain. -/
def Obligations.RotationsAndShiftMatchArithmetic : Prop :=
  ∀ (x : Word) (n : Fin 32),
    (1 ≤ n.val → (rotl x n).toNat = (x.toNat * 2 ^ n.val) % 2 ^ 32 + x.toNat / 2 ^ (32 - n.val)) ∧
    (1 ≤ n.val → (rotr x n).toNat = x.toNat / 2 ^ n.val + (x.toNat % 2 ^ n.val) * 2 ^ (32 - n.val)) ∧
    rotl x 0 = x ∧ rotr x 0 = x ∧ rotl x n = rotr x (Fin.ofNat 32 (32 - n.val)) ∧
    (shr x n).toNat = x.toNat / 2 ^ n.val

/-- R93, R94: `add32` of any number of words is their sum mod 2^32 in any order, and `mul32` the product mod 2^32. -/
def Obligations.AddAndMulAreModular : Prop :=
  (∀ ws : List Word, (add32 ws).toNat = (ws.map BitVec.toNat).sum % 2 ^ 32) ∧
  (∀ ws ws' : List Word, ws.Perm ws' → add32 ws = add32 ws') ∧
  (∀ a b : Word, (mul32 a b).toNat = a.toNat * b.toNat % 2 ^ 32)

/-- R101: `x OR 1` sets bit 0 alone, and the product of two such words is odd, hence never 0. -/
def Obligations.OddFactorsGiveOddProduct : Prop :=
  ∀ x y : Word, (or1 x).getLsbD 0 = true ∧ (∀ k : Nat, 1 ≤ k → (or1 x).getLsbD k = x.getLsbD k) ∧
    (mul32 (or1 x) (or1 y)).toNat % 2 = 1 ∧ mul32 (or1 x) (or1 y) ≠ 0

/-- R95 to R100: the selectors and the four diffusion functions bit by bit (the third term of the small ones is a shift: 0
comes in from above bit 31), and the four linear over XOR. -/
def Obligations.SelectorsAndDiffusionFunctions : Prop :=
  (∀ (e f g : Word) (k : Nat), k < 32 →
    (ch e f g).getLsbD k = if e.getLsbD k then f.getLsbD k else g.getLsbD k) ∧
  (∀ (a b c : Word) (k : Nat), k < 32 →
    (maj a b c).getLsbD k = decide (2 ≤ [a, b, c].countP fun x => x.getLsbD k)) ∧
  (∀ (x : Word) (k : Nat), k < 32 →
    (sigma0 x).getLsbD k =
      (x.getLsbD ((k + 2) % 32) ^^ x.getLsbD ((k + 13) % 32) ^^ x.getLsbD ((k + 22) % 32)) ∧
    (sigma1 x).getLsbD k =
      (x.getLsbD ((k + 6) % 32) ^^ x.getLsbD ((k + 11) % 32) ^^ x.getLsbD ((k + 25) % 32)) ∧
    (smallSigma0 x).getLsbD k =
      (x.getLsbD ((k + 7) % 32) ^^ x.getLsbD ((k + 18) % 32) ^^ (decide (k + 3 < 32) && x.getLsbD (k + 3))) ∧
    (smallSigma1 x).getLsbD k =
      (x.getLsbD ((k + 17) % 32) ^^ x.getLsbD ((k + 19) % 32) ^^ (decide (k + 10 < 32) && x.getLsbD (k + 10)))) ∧
  (∀ x y : Word, sigma0 (x ^^^ y) = sigma0 x ^^^ sigma0 y ∧ sigma1 (x ^^^ y) = sigma1 x ^^^ sigma1 y ∧
    smallSigma0 (x ^^^ y) = smallSigma0 x ^^^ smallSigma0 y ∧ smallSigma1 (x ^^^ y) = smallSigma1 x ^^^ smallSigma1 y)

/-! ### Padding (41_padding) -/

/-- R110, R111, R112: Z is the least zero count that meets the congruence, and `pad(M)` is NB whole blocks, at least
`len(M) + 9` bytes. -/
def Obligations.PadFillsWholeBlocks : Prop :=
  ∀ msg : List Byte,
    (msg.length + 1 + zeroCount msg.length) % 64 = 56 ∧
    (∀ z : Nat, (msg.length + 1 + z) % 64 = 56 → zeroCount msg.length ≤ z) ∧
    (pad msg).length = 64 * ((msg.length + 8) / 64 + 1) ∧ (pad msg).length % 64 = 0 ∧
    msg.length + 9 ≤ (pad msg).length

/-- R110, R113: what stands at each index of the padded message (the message, 0x80, zeros, the bit length big-endian), the
cut into blocks, and that the padded-byte function gives the bytes of the list `pad(M)`, no more and no fewer. -/
def Obligations.PaddedByteIsByteOfPad : Prop :=
  (∀ (m : Nat → Byte) (len : Nat), len < 2 ^ 61 →
    (∀ q : Nat, q < len → paddedByte m len q = m q) ∧
    paddedByte m len len = 0x80 ∧
    (∀ q : Nat, len < q → q < 64 * ((len + 8) / 64 + 1) - 8 → paddedByte m len q = 0x00) ∧
    (∀ k : Nat, k < 8 →
      (paddedByte m len (64 * ((len + 8) / 64 + 1) - 8 + k)).toNat = 8 * len / 2 ^ (8 * (7 - k)) % 256) ∧
    (∀ (b : Nat) (q : Fin 64), (block m len b)[q] = paddedByte m len (64 * b + q.val))) ∧
  (∀ msg : List Byte, msg.length < 2 ^ 61 →
    (pad msg).length = 64 * ((msg.length + 8) / 64 + 1) ∧
    (∀ q : Nat, q < msg.length → (pad msg)[q]? = msg[q]?) ∧
    (∀ q : Nat, q < 64 * ((msg.length + 8) / 64 + 1) →
      (pad msg)[q]? = some (paddedByte (listBytes msg) msg.length q)))

/-- R115: two different messages never have the same padded sequence. -/
def Obligations.PadIsInjective : Prop :=
  ∀ msg msg' : List Byte, msg.length < 2 ^ 61 → msg'.length < 2 ^ 61 → pad msg = pad msg' → msg = msg'

/-! ### Expander and compression (42_block_expander, 43_round_compression) -/

/-- R120, R121: every word of the schedule: the big-endian parse of the block, and the recurrence. -/
def Obligations.ScheduleFollowsRecurrence : Prop :=
  ∀ b : Vector Byte 64,
    (∀ i : Fin 16, (schedule b)[i.val].toNat =
      b[4 * i.val].toNat * 2 ^ 24 + b[4 * i.val + 1].toNat * 2 ^ 16 + b[4 * i.val + 2].toNat * 2 ^ 8
        + b[4 * i.val + 3].toNat) ∧
    (∀ i : Fin 8, (schedule b)[16 + i.val] =
      (smallSigma1 (schedule b)[14 + i.val] + (schedule b)[9 + i.val] + smallSigma0 (schedule b)[1 + i.val]
        + (schedule b)[i.val])
      + ((schedule b)[13 + i.val] ||| 1) * ((schedule b)[6 + i.val] ||| 1))

/-- R131 to R134: the sixteen words of one round, all from the old sixteen. -/
def Obligations.RoundWritesSixteenWords : Prop :=
  ∀ (v : Vector Word 16) (k w : Word),
    let t1 := v[7] + sigma1 v[4] + ch v[4] v[5] v[6] + k + w
    let t2 := sigma0 v[0] + maj v[0] v[1] v[2]
    let t3 := v[15] + sigma1 v[12] + ch v[12] v[13] v[14] + (k ^^^ 0x5A5A5A5A) + w
    let t4 := sigma0 v[8] + maj v[8] v[9] v[10]
    let m1 := (v[0] ^^^ v[8]) * (v[4] ^^^ v[12])
    let m2 := (v[1] ^^^ v[9]) * (v[5] ^^^ v[13])
    let m3 := (v[2] ^^^ v[10]) * (v[6] ^^^ v[14])
    let m4 := (v[3] ^^^ v[11]) * (v[7] ^^^ v[15])
    roundStep v k w =
      #v[t1 + t2 + m1, v[0], v[1], v[2] + m2, v[3] + t1, v[4], v[5], v[6] + m3,
         t3 + t4 + m1, v[8], v[9], v[10] + m4, v[11] + t3, v[12], v[13], v[14] + (m2 ^^^ m3)]

/-- R136: the permutation interleaves the two halves. -/
def Obligations.PermInterleavesHalves : Prop :=
  ∀ (v : Vector Word 16) (x : Fin 8), (perm v)[2 * x.val] = v[x.val] ∧ (perm v)[2 * x.val + 1] = v[x.val + 8]

/-- R130, R137, R139, R140: compression is 24 rounds from a copy of H in ascending order, with the permutation after every
round t with t mod 4 = 3, and the word-wise addition of the H from before the block. -/
def Obligations.CompressionIsRoundsAndFeedForward : Prop :=
  ∀ (cfg : Cfg) (h : Vector Word 16) (b : Vector Byte 64), ∃ v : Nat → Vector Word 16,
    v 0 = h ∧
    (∀ t : Fin 24, v (t.val + 1) =
      if t.val % 4 = 3 then perm (roundStep (v t.val) cfg.k[t] (schedule b)[t])
      else roundStep (v t.val) cfg.k[t] (schedule b)[t]) ∧
    ∀ x : Fin 16, (compress cfg h b)[x] = h[x] + (v 24)[x]

/-! ### Finalization (44_finalization) -/

/-- R150 to R153: the pass-1 words, and pass 2 in both modes: under INPLACE an operand of index below i is the word already
updated, under SNAPSHOT every operand is a pass-1 word. -/
def Obligations.FinalizationFollowsItsMode : Prop :=
  ∀ (cfg : Cfg) (h : Vector Word 16),
    let p := pass1 h
    let f := finalize cfg h
    (∀ i : Fin 8, p[i.val] =
      (h[i.val] ^^^ h[i.val + 8]) + (h[i.val] ||| 1) * (rotl h[i.val + 8] 13 ||| 1)
        + rotr (h[i.val] ^^^ h[i.val + 8]) (Fin.ofNat 32 (i.val + 1))) ∧
    (∀ i : Fin 8,
      let x : Fin 8 → Word := fun k =>
        match cfg.fold2Mode with
        | .inplace => if k < i then f[k] else p[k]
        | .snapshot => p[k]
      f[i] = p[i] + (x (i + 1) ||| 1) * (x (i + 5) ||| 1) + rotr (x (i + 3)) 7)

/-- R154: the digest is 32 bytes, byte 4i + k being the k-th byte of F[i] from the most significant. -/
def Obligations.DigestIsSerializedBigEndian : Prop :=
  ∀ f : Vector Word 8, (digestBytes f).length = 32 ∧
    ∀ (i : Fin 8) (k : Fin 4),
      ((digestBytes f)[4 * i.val + k.val]?).map BitVec.toNat = some (f[i].toNat / 2 ^ (8 * (3 - k.val)) % 256)

/-! ### The invariant -/

/-- R40: at power-on, whatever the configuration, the content of MSG and the operations the host will issue, the state is
consistent; so is the state after reset. -/
def Obligations.PowerOnIsConsistent : Prop :=
  (∀ (cfg : Cfg) (msg : Memory) (ops : List HostOp), Memory.wf msg = true → Memory.within cfg.msgCap msg = true →
    State.Consistent { State.powerOn cfg msg with pending := ops }) ∧
  State.Consistent State.reset

/-- R21, R25, R32 to R37, R200: every step from a consistent state ends in a consistent state. -/
def Obligations.StepKeepsConsistent : Prop :=
  ∀ s t : State, s.Consistent → step s = .next t → t.Consistent
end

