-- ==== Sys2Proof/Laws/Memory.lean ====
section
/-! SUPPORT. The laws of the message memory: read after write, and that every operation keeps the canonical form. -/

namespace Sys2Proof.Machine

@[simp] theorem Memory.read_nil (a : Nat) : Memory.read [] a = Memory.unlisted := rfl

theorem Memory.read_cons (a : Nat) (b : Byte) (m : Memory) (x : Nat) :
    Memory.read ((a, b) :: m) x = if a = x then b else Memory.read m x := rfl

theorem Memory.read_insert_same (m : Memory) (a : Nat) (b : Byte) :
    Memory.read (Memory.insert m a b) a = b := by
  induction m with
  | nil => simp [Memory.insert, Memory.read_cons]
  | cons c m ih =>
    obtain ⟨a', c'⟩ := c
    simp only [Memory.insert]
    split
    · simp [Memory.read_cons]
    · split
      · simp [Memory.read_cons]
      · rename_i hne
        simp [Memory.read_cons, Ne.symm hne, ih]

theorem Memory.read_insert_other (m : Memory) (a : Nat) (b : Byte) (x : Nat) (h : x ≠ a) :
    Memory.read (Memory.insert m a b) x = Memory.read m x := by
  induction m with
  | nil => simp [Memory.insert, Memory.read_cons, Ne.symm h]
  | cons c m ih =>
    obtain ⟨a', c'⟩ := c
    simp only [Memory.insert]
    split
    · simp [Memory.read_cons, Ne.symm h]
    · split
      · rename_i he
        subst he
        simp [Memory.read_cons, Ne.symm h]
      · simp [Memory.read_cons, ih]

theorem Memory.read_erase_same (m : Memory) (a : Nat) :
    Memory.read (Memory.erase m a) a = Memory.unlisted := by
  induction m with
  | nil => rfl
  | cons c m ih =>
    obtain ⟨a', c'⟩ := c
    by_cases h : a' = a
    · simpa [Memory.erase, h] using ih
    · simpa [Memory.erase, h, Memory.read_cons] using ih

theorem Memory.read_erase_other (m : Memory) (a x : Nat) (h : x ≠ a) :
    Memory.read (Memory.erase m a) x = Memory.read m x := by
  induction m with
  | nil => rfl
  | cons c m ih =>
    obtain ⟨a', c'⟩ := c
    by_cases ha : a' = a
    · subst ha
      simpa [Memory.erase, Memory.read_cons, Ne.symm h] using ih
    · by_cases hx : a' = x
      · subst hx
        simp [Memory.erase, ha, Memory.read_cons]
      · simpa [Memory.erase, ha, Memory.read_cons, hx] using ih

/-- A byte reads as it was last written. -/
@[simp] theorem Memory.read_write_same (m : Memory) (a : Nat) (b : Byte) :
    Memory.read (Memory.write m a b) a = b := by
  unfold Memory.write
  split
  · rename_i h
    rw [Memory.read_erase_same, h]
  · exact Memory.read_insert_same m a b

/-- A write leaves every other byte alone. -/
theorem Memory.read_write_other (m : Memory) (a : Nat) (b : Byte) (x : Nat) (h : x ≠ a) :
    Memory.read (Memory.write m a b) x = Memory.read m x := by
  unfold Memory.write
  split
  · exact Memory.read_erase_other m a x h
  · exact Memory.read_insert_other m a b x h

/-- Everything a write does to what is read, at once. -/
theorem Memory.read_write (m : Memory) (a : Nat) (b : Byte) (x : Nat) :
    Memory.read (Memory.write m a b) x = if x = a then b else Memory.read m x := by
  split
  · rename_i h
    subst h
    exact Memory.read_write_same m x b
  · rename_i h
    exact Memory.read_write_other m a b x h

theorem Memory.mem_insert {m : Memory} {a : Nat} {b : Byte} {c : Host.Cell} (h : c ∈ Memory.insert m a b) :
    c = (a, b) ∨ c ∈ m := by
  induction m with
  | nil => simpa [Memory.insert] using h
  | cons d m ih =>
    obtain ⟨a', c'⟩ := d
    simp only [Memory.insert] at h
    split at h
    · simpa using h
    · split at h
      · rcases List.mem_cons.mp h with h | h
        · exact .inl h
        · exact .inr (List.mem_cons_of_mem _ h)
      · rcases List.mem_cons.mp h with h | h
        · exact .inr (h ▸ List.mem_cons_self)
        · rcases ih h with h | h
          · exact .inl h
          · exact .inr (List.mem_cons_of_mem _ h)

theorem Memory.wf_iff (m : Memory) :
    Memory.wf m = true ↔ (m.Pairwise fun x y => x.1 < y.1) ∧ ∀ c ∈ m, c.2 ≠ Memory.unlisted := by
  simp [Memory.wf]

theorem Memory.pairwise_insert {m : Memory} (h : m.Pairwise fun x y => x.1 < y.1) (a : Nat) (b : Byte) :
    (Memory.insert m a b).Pairwise fun x y => x.1 < y.1 := by
  induction m with
  | nil => simp [Memory.insert]
  | cons d m ih =>
    obtain ⟨a', c'⟩ := d
    rw [List.pairwise_cons] at h
    simp only [Memory.insert]
    split
    · rename_i hlt
      refine List.pairwise_cons.mpr ⟨fun c hc => ?_, List.pairwise_cons.mpr h⟩
      rcases List.mem_cons.mp hc with rfl | hc
      · exact hlt
      · exact lt_trans hlt (h.1 c hc)
    · split
      · rename_i he
        subst he
        exact List.pairwise_cons.mpr ⟨fun c hc => h.1 c hc, h.2⟩
      · refine List.pairwise_cons.mpr ⟨fun c hc => ?_, ih h.2⟩
        rcases Memory.mem_insert hc with rfl | hc
        · simp only
          omega
        · exact h.1 c hc

/-- A write keeps the canonical form. -/
theorem Memory.wf_write {m : Memory} (h : Memory.wf m = true) (a : Nat) (b : Byte) :
    Memory.wf (Memory.write m a b) = true := by
  rw [Memory.wf_iff] at h ⊢
  unfold Memory.write
  split
  · exact ⟨h.1.filter _, fun c hc => h.2 c (List.mem_of_mem_filter hc)⟩
  · refine ⟨Memory.pairwise_insert h.1 a b, fun c hc => ?_⟩
    rcases Memory.mem_insert hc with rfl | hc
    · assumption
    · exact h.2 c hc

/-- A write at an existing address keeps every listed address existing. -/
theorem Memory.within_write {m : Memory} {cap : Nat} (h : Memory.within cap m = true) {a : Nat} (ha : a < cap)
    (b : Byte) : Memory.within cap (Memory.write m a b) = true := by
  simp only [Memory.within, List.all_eq_true, decide_eq_true_eq] at h ⊢
  intro c hc
  unfold Memory.write at hc
  split at hc
  · exact h c (List.mem_of_mem_filter hc)
  · rcases Memory.mem_insert hc with rfl | hc
    · exact ha
    · exact h c hc

@[simp] theorem Memory.wf_nil : Memory.wf [] = true := by simp [Memory.wf]

@[simp] theorem Memory.within_nil (cap : Nat) : Memory.within cap [] = true := rfl

/-- `MsgWrite` keeps the canonical form and the bound, whatever its address. -/
theorem msgWrite_keeps_canonical (addr : BitVec 64) (b : Byte) (s : State) (h : Memory.wf s.msg = true)
    (hw : Memory.within s.cfg.msgCap s.msg = true) :
    Memory.wf (msgWrite addr b s).msg = true ∧ Memory.within s.cfg.msgCap (msgWrite addr b s).msg = true := by
  unfold msgWrite
  split
  · rename_i ha
    exact ⟨Memory.wf_write h _ _, Memory.within_write hw ha b⟩
  · exact ⟨h, hw⟩

/-- Everything `MsgWrite` does to what the message port reads, at once. -/
theorem read_msgWrite (addr : BitVec 64) (b : Byte) (s : State) (x : Nat) :
    Memory.read (msgWrite addr b s).msg x =
      if addr.toNat < s.cfg.msgCap ∧ x = addr.toNat then b else Memory.read s.msg x := by
  unfold msgWrite
  by_cases ha : addr.toNat < s.cfg.msgCap <;> simp [ha, Memory.read_write]

end Sys2Proof.Machine
end

