-- ==== Sys2Proof/Laws/State.lean ====
section
/-! SUPPORT. One lemma per field per state update: what each named update leaves in each field. -/

namespace Sys2Proof.Machine

/-! ### raiseError -/

@[simp] theorem raiseError_cfg (flag : ResultFlag) (e : CommandError) (s : State) :
    (raiseError flag e s).cfg = s.cfg := rfl
@[simp] theorem raiseError_mlen (flag : ResultFlag) (e : CommandError) (s : State) :
    (raiseError flag e s).mlen = s.mlen := rfl
@[simp] theorem raiseError_bitpos (flag : ResultFlag) (e : CommandError) (s : State) :
    (raiseError flag e s).bitpos = s.bitpos := rfl
@[simp] theorem raiseError_status (flag : ResultFlag) (e : CommandError) (s : State) :
    (raiseError flag e s).status = statusOnError flag e s.status := rfl
@[simp] theorem raiseError_h (flag : ResultFlag) (e : CommandError) (s : State) :
    (raiseError flag e s).h = s.h := rfl
@[simp] theorem raiseError_w (flag : ResultFlag) (e : CommandError) (s : State) :
    (raiseError flag e s).w = s.w := rfl
@[simp] theorem raiseError_f (flag : ResultFlag) (e : CommandError) (s : State) :
    (raiseError flag e s).f = s.f := rfl
@[simp] theorem raiseError_ref (flag : ResultFlag) (e : CommandError) (s : State) :
    (raiseError flag e s).ref = s.ref := rfl
@[simp] theorem raiseError_avcnt (flag : ResultFlag) (e : CommandError) (s : State) :
    (raiseError flag e s).avcnt = s.avcnt := rfl
@[simp] theorem raiseError_xcm (flag : ResultFlag) (e : CommandError) (s : State) :
    (raiseError flag e s).xcm = s.xcm := rfl
@[simp] theorem raiseError_xmin (flag : ResultFlag) (e : CommandError) (s : State) :
    (raiseError flag e s).xmin = s.xmin := rfl
@[simp] theorem raiseError_xent (flag : ResultFlag) (e : CommandError) (s : State) :
    (raiseError flag e s).xent = s.xent := rfl
@[simp] theorem raiseError_mixnum (flag : ResultFlag) (e : CommandError) (s : State) :
    (raiseError flag e s).mixnum = s.mixnum := rfl
@[simp] theorem raiseError_mixden (flag : ResultFlag) (e : CommandError) (s : State) :
    (raiseError flag e s).mixden = s.mixden := rfl
@[simp] theorem raiseError_scorenum (flag : ResultFlag) (e : CommandError) (s : State) :
    (raiseError flag e s).scorenum = s.scorenum := rfl
@[simp] theorem raiseError_msg (flag : ResultFlag) (e : CommandError) (s : State) :
    (raiseError flag e s).msg = s.msg := rfl
@[simp] theorem raiseError_seq (flag : ResultFlag) (e : CommandError) (s : State) :
    (raiseError flag e s).seq = s.seq := rfl
@[simp] theorem raiseError_pending (flag : ResultFlag) (e : CommandError) (s : State) :
    (raiseError flag e s).pending = s.pending := rfl
@[simp] theorem raiseError_response (flag : ResultFlag) (e : CommandError) (s : State) :
    (raiseError flag e s).response = s.response := rfl

/-! ### succeed -/

@[simp] theorem succeed_cfg (upd : Status → Status) (s : State) :
    (succeed upd s).cfg = s.cfg := rfl
@[simp] theorem succeed_mlen (upd : Status → Status) (s : State) :
    (succeed upd s).mlen = s.mlen := rfl
@[simp] theorem succeed_bitpos (upd : Status → Status) (s : State) :
    (succeed upd s).bitpos = s.bitpos := rfl
@[simp] theorem succeed_status (upd : Status → Status) (s : State) :
    (succeed upd s).status = statusOnSuccess (upd s.status) := rfl
@[simp] theorem succeed_h (upd : Status → Status) (s : State) :
    (succeed upd s).h = s.h := rfl
@[simp] theorem succeed_w (upd : Status → Status) (s : State) :
    (succeed upd s).w = s.w := rfl
@[simp] theorem succeed_f (upd : Status → Status) (s : State) :
    (succeed upd s).f = s.f := rfl
@[simp] theorem succeed_ref (upd : Status → Status) (s : State) :
    (succeed upd s).ref = s.ref := rfl
@[simp] theorem succeed_avcnt (upd : Status → Status) (s : State) :
    (succeed upd s).avcnt = s.avcnt := rfl
@[simp] theorem succeed_xcm (upd : Status → Status) (s : State) :
    (succeed upd s).xcm = s.xcm := rfl
@[simp] theorem succeed_xmin (upd : Status → Status) (s : State) :
    (succeed upd s).xmin = s.xmin := rfl
@[simp] theorem succeed_xent (upd : Status → Status) (s : State) :
    (succeed upd s).xent = s.xent := rfl
@[simp] theorem succeed_mixnum (upd : Status → Status) (s : State) :
    (succeed upd s).mixnum = s.mixnum := rfl
@[simp] theorem succeed_mixden (upd : Status → Status) (s : State) :
    (succeed upd s).mixden = s.mixden := rfl
@[simp] theorem succeed_scorenum (upd : Status → Status) (s : State) :
    (succeed upd s).scorenum = s.scorenum := rfl
@[simp] theorem succeed_msg (upd : Status → Status) (s : State) :
    (succeed upd s).msg = s.msg := rfl
@[simp] theorem succeed_seq (upd : Status → Status) (s : State) :
    (succeed upd s).seq = s.seq := rfl
@[simp] theorem succeed_pending (upd : Status → Status) (s : State) :
    (succeed upd s).pending = s.pending := rfl
@[simp] theorem succeed_response (upd : Status → Status) (s : State) :
    (succeed upd s).response = s.response := rfl

/-! ### clearResults -/

@[simp] theorem clearResults_cfg (s : State) :
    (clearResults s).cfg = s.cfg := rfl
@[simp] theorem clearResults_mlen (s : State) :
    (clearResults s).mlen = s.mlen := rfl
@[simp] theorem clearResults_bitpos (s : State) :
    (clearResults s).bitpos = s.bitpos := rfl
@[simp] theorem clearResults_status (s : State) :
    (clearResults s).status = Status.zero := rfl
@[simp] theorem clearResults_h (s : State) :
    (clearResults s).h = Vector.replicate 16 0 := rfl
@[simp] theorem clearResults_w (s : State) :
    (clearResults s).w = Vector.replicate 24 0 := rfl
@[simp] theorem clearResults_f (s : State) :
    (clearResults s).f = Vector.replicate 8 0 := rfl
@[simp] theorem clearResults_ref (s : State) :
    (clearResults s).ref = Vector.replicate 8 0 := rfl
@[simp] theorem clearResults_avcnt (s : State) :
    (clearResults s).avcnt = 0 := rfl
@[simp] theorem clearResults_xcm (s : State) :
    (clearResults s).xcm = Vector.replicate 32 (Vector.replicate 32 0) := rfl
@[simp] theorem clearResults_xmin (s : State) :
    (clearResults s).xmin = 0 := rfl
@[simp] theorem clearResults_xent (s : State) :
    (clearResults s).xent = 0 := rfl
@[simp] theorem clearResults_mixnum (s : State) :
    (clearResults s).mixnum = 0 := rfl
@[simp] theorem clearResults_mixden (s : State) :
    (clearResults s).mixden = 0 := rfl
@[simp] theorem clearResults_scorenum (s : State) :
    (clearResults s).scorenum = 0 := rfl
@[simp] theorem clearResults_msg (s : State) :
    (clearResults s).msg = s.msg := rfl
@[simp] theorem clearResults_seq (s : State) :
    (clearResults s).seq = s.seq := rfl
@[simp] theorem clearResults_pending (s : State) :
    (clearResults s).pending = s.pending := rfl
@[simp] theorem clearResults_response (s : State) :
    (clearResults s).response = s.response := rfl

/-! ### resetEvent -/

@[simp] theorem resetEvent_cfg (s : State) :
    (resetEvent s).cfg = s.cfg := rfl
@[simp] theorem resetEvent_mlen (s : State) :
    (resetEvent s).mlen = 0 := rfl
@[simp] theorem resetEvent_bitpos (s : State) :
    (resetEvent s).bitpos = 0 := rfl
@[simp] theorem resetEvent_status (s : State) :
    (resetEvent s).status = Status.zero := rfl
@[simp] theorem resetEvent_h (s : State) :
    (resetEvent s).h = Vector.replicate 16 0 := rfl
@[simp] theorem resetEvent_w (s : State) :
    (resetEvent s).w = Vector.replicate 24 0 := rfl
@[simp] theorem resetEvent_f (s : State) :
    (resetEvent s).f = Vector.replicate 8 0 := rfl
@[simp] theorem resetEvent_ref (s : State) :
    (resetEvent s).ref = Vector.replicate 8 0 := rfl
@[simp] theorem resetEvent_avcnt (s : State) :
    (resetEvent s).avcnt = 0 := rfl
@[simp] theorem resetEvent_xcm (s : State) :
    (resetEvent s).xcm = Vector.replicate 32 (Vector.replicate 32 0) := rfl
@[simp] theorem resetEvent_xmin (s : State) :
    (resetEvent s).xmin = 0 := rfl
@[simp] theorem resetEvent_xent (s : State) :
    (resetEvent s).xent = 0 := rfl
@[simp] theorem resetEvent_mixnum (s : State) :
    (resetEvent s).mixnum = 0 := rfl
@[simp] theorem resetEvent_mixden (s : State) :
    (resetEvent s).mixden = 0 := rfl
@[simp] theorem resetEvent_scorenum (s : State) :
    (resetEvent s).scorenum = 0 := rfl
@[simp] theorem resetEvent_msg (s : State) :
    (resetEvent s).msg = s.msg := rfl
@[simp] theorem resetEvent_seq (s : State) :
    (resetEvent s).seq = .idle := rfl
@[simp] theorem resetEvent_pending (s : State) :
    (resetEvent s).pending = s.pending := rfl
@[simp] theorem resetEvent_response (s : State) :
    (resetEvent s).response = s.response := rfl

/-! ### accept -/

@[simp] theorem accept_cfg (rest : List HostOp) (r : Response) (s : State) :
    (accept rest r s).cfg = s.cfg := rfl
@[simp] theorem accept_mlen (rest : List HostOp) (r : Response) (s : State) :
    (accept rest r s).mlen = s.mlen := rfl
@[simp] theorem accept_bitpos (rest : List HostOp) (r : Response) (s : State) :
    (accept rest r s).bitpos = s.bitpos := rfl
@[simp] theorem accept_status (rest : List HostOp) (r : Response) (s : State) :
    (accept rest r s).status = s.status := rfl
@[simp] theorem accept_h (rest : List HostOp) (r : Response) (s : State) :
    (accept rest r s).h = s.h := rfl
@[simp] theorem accept_w (rest : List HostOp) (r : Response) (s : State) :
    (accept rest r s).w = s.w := rfl
@[simp] theorem accept_f (rest : List HostOp) (r : Response) (s : State) :
    (accept rest r s).f = s.f := rfl
@[simp] theorem accept_ref (rest : List HostOp) (r : Response) (s : State) :
    (accept rest r s).ref = s.ref := rfl
@[simp] theorem accept_avcnt (rest : List HostOp) (r : Response) (s : State) :
    (accept rest r s).avcnt = s.avcnt := rfl
@[simp] theorem accept_xcm (rest : List HostOp) (r : Response) (s : State) :
    (accept rest r s).xcm = s.xcm := rfl
@[simp] theorem accept_xmin (rest : List HostOp) (r : Response) (s : State) :
    (accept rest r s).xmin = s.xmin := rfl
@[simp] theorem accept_xent (rest : List HostOp) (r : Response) (s : State) :
    (accept rest r s).xent = s.xent := rfl
@[simp] theorem accept_mixnum (rest : List HostOp) (r : Response) (s : State) :
    (accept rest r s).mixnum = s.mixnum := rfl
@[simp] theorem accept_mixden (rest : List HostOp) (r : Response) (s : State) :
    (accept rest r s).mixden = s.mixden := rfl
@[simp] theorem accept_scorenum (rest : List HostOp) (r : Response) (s : State) :
    (accept rest r s).scorenum = s.scorenum := rfl
@[simp] theorem accept_msg (rest : List HostOp) (r : Response) (s : State) :
    (accept rest r s).msg = s.msg := rfl
@[simp] theorem accept_seq (rest : List HostOp) (r : Response) (s : State) :
    (accept rest r s).seq = s.seq := rfl
@[simp] theorem accept_pending (rest : List HostOp) (r : Response) (s : State) :
    (accept rest r s).pending = rest := rfl
@[simp] theorem accept_response (rest : List HostOp) (r : Response) (s : State) :
    (accept rest r s).response = r := rfl

/-! ### runPipeline -/

@[simp] theorem runPipeline_cfg (m : Nat → Byte) (s : State) :
    (runPipeline m s).cfg = s.cfg := rfl
@[simp] theorem runPipeline_mlen (m : Nat → Byte) (s : State) :
    (runPipeline m s).mlen = s.mlen := rfl
@[simp] theorem runPipeline_bitpos (m : Nat → Byte) (s : State) :
    (runPipeline m s).bitpos = s.bitpos := rfl
@[simp] theorem runPipeline_status (m : Nat → Byte) (s : State) :
    (runPipeline m s).status = s.status := rfl
@[simp] theorem runPipeline_h (m : Nat → Byte) (s : State) :
    (runPipeline m s).h = finalState s.cfg m (msgLen s) := rfl
@[simp] theorem runPipeline_w (m : Nat → Byte) (s : State) :
    (runPipeline m s).w = lastSchedule m (msgLen s) := rfl
@[simp] theorem runPipeline_f (m : Nat → Byte) (s : State) :
    (runPipeline m s).f = digestWords s.cfg m (msgLen s) := rfl
@[simp] theorem runPipeline_ref (m : Nat → Byte) (s : State) :
    (runPipeline m s).ref = s.ref := rfl
@[simp] theorem runPipeline_avcnt (m : Nat → Byte) (s : State) :
    (runPipeline m s).avcnt = s.avcnt := rfl
@[simp] theorem runPipeline_xcm (m : Nat → Byte) (s : State) :
    (runPipeline m s).xcm = s.xcm := rfl
@[simp] theorem runPipeline_xmin (m : Nat → Byte) (s : State) :
    (runPipeline m s).xmin = s.xmin := rfl
@[simp] theorem runPipeline_xent (m : Nat → Byte) (s : State) :
    (runPipeline m s).xent = s.xent := rfl
@[simp] theorem runPipeline_mixnum (m : Nat → Byte) (s : State) :
    (runPipeline m s).mixnum = s.mixnum := rfl
@[simp] theorem runPipeline_mixden (m : Nat → Byte) (s : State) :
    (runPipeline m s).mixden = s.mixden := rfl
@[simp] theorem runPipeline_scorenum (m : Nat → Byte) (s : State) :
    (runPipeline m s).scorenum = s.scorenum := rfl
@[simp] theorem runPipeline_msg (m : Nat → Byte) (s : State) :
    (runPipeline m s).msg = s.msg := rfl
@[simp] theorem runPipeline_seq (m : Nat → Byte) (s : State) :
    (runPipeline m s).seq = s.seq := rfl
@[simp] theorem runPipeline_pending (m : Nat → Byte) (s : State) :
    (runPipeline m s).pending = s.pending := rfl
@[simp] theorem runPipeline_response (m : Nat → Byte) (s : State) :
    (runPipeline m s).response = s.response := rfl

/-! ### runAvalanche -/

@[simp] theorem runAvalanche_cfg (s : State) :
    (runAvalanche s).cfg = s.cfg := rfl
@[simp] theorem runAvalanche_mlen (s : State) :
    (runAvalanche s).mlen = s.mlen := rfl
@[simp] theorem runAvalanche_bitpos (s : State) :
    (runAvalanche s).bitpos = s.bitpos := rfl
@[simp] theorem runAvalanche_status (s : State) :
    (runAvalanche s).status = s.status := rfl
@[simp] theorem runAvalanche_h (s : State) :
    (runAvalanche s).h = finalState s.cfg (copyByte s) (msgLen s) := rfl
@[simp] theorem runAvalanche_w (s : State) :
    (runAvalanche s).w = lastSchedule (copyByte s) (msgLen s) := rfl
@[simp] theorem runAvalanche_f (s : State) :
    (runAvalanche s).f = digestWords s.cfg (copyByte s) (msgLen s) := rfl
@[simp] theorem runAvalanche_ref (s : State) :
    (runAvalanche s).ref = digestWords s.cfg (msgByte s) (msgLen s) := rfl
@[simp] theorem runAvalanche_avcnt (s : State) :
    (runAvalanche s).avcnt = BitVec.ofNat 9 (digestDistance (digestWords s.cfg (msgByte s) (msgLen s))
      (digestWords s.cfg (copyByte s) (msgLen s))) := rfl
@[simp] theorem runAvalanche_xcm (s : State) :
    (runAvalanche s).xcm = s.xcm := rfl
@[simp] theorem runAvalanche_xmin (s : State) :
    (runAvalanche s).xmin = s.xmin := rfl
@[simp] theorem runAvalanche_xent (s : State) :
    (runAvalanche s).xent = s.xent := rfl
@[simp] theorem runAvalanche_mixnum (s : State) :
    (runAvalanche s).mixnum = s.mixnum := rfl
@[simp] theorem runAvalanche_mixden (s : State) :
    (runAvalanche s).mixden = s.mixden := rfl
@[simp] theorem runAvalanche_scorenum (s : State) :
    (runAvalanche s).scorenum = s.scorenum := rfl
@[simp] theorem runAvalanche_msg (s : State) :
    (runAvalanche s).msg = s.msg := rfl
@[simp] theorem runAvalanche_seq (s : State) :
    (runAvalanche s).seq = s.seq := rfl
@[simp] theorem runAvalanche_pending (s : State) :
    (runAvalanche s).pending = s.pending := rfl
@[simp] theorem runAvalanche_response (s : State) :
    (runAvalanche s).response = s.response := rfl

/-! ### withFetchWord -/

@[simp] theorem withFetchWord_cfg (nbits word : Nat) (s : State) :
    (s.withFetchWord nbits word).cfg = s.cfg := rfl
@[simp] theorem withFetchWord_mlen (nbits word : Nat) (s : State) :
    (s.withFetchWord nbits word).mlen = s.mlen := rfl
@[simp] theorem withFetchWord_bitpos (nbits word : Nat) (s : State) :
    (s.withFetchWord nbits word).bitpos = s.bitpos := rfl
@[simp] theorem withFetchWord_status (nbits word : Nat) (s : State) :
    (s.withFetchWord nbits word).status = s.status := rfl
@[simp] theorem withFetchWord_h (nbits word : Nat) (s : State) :
    (s.withFetchWord nbits word).h = s.h := rfl
@[simp] theorem withFetchWord_w (nbits word : Nat) (s : State) :
    (s.withFetchWord nbits word).w = s.w := rfl
@[simp] theorem withFetchWord_f (nbits word : Nat) (s : State) :
    (s.withFetchWord nbits word).f = s.f := rfl
@[simp] theorem withFetchWord_ref (nbits word : Nat) (s : State) :
    (s.withFetchWord nbits word).ref = s.ref := rfl
@[simp] theorem withFetchWord_avcnt (nbits word : Nat) (s : State) :
    (s.withFetchWord nbits word).avcnt = s.avcnt := rfl
@[simp] theorem withFetchWord_xcm (nbits word : Nat) (s : State) :
    (s.withFetchWord nbits word).xcm = s.xcm := rfl
@[simp] theorem withFetchWord_xmin (nbits word : Nat) (s : State) :
    (s.withFetchWord nbits word).xmin = s.xmin := rfl
@[simp] theorem withFetchWord_xent (nbits word : Nat) (s : State) :
    (s.withFetchWord nbits word).xent = s.xent := rfl
@[simp] theorem withFetchWord_mixnum (nbits word : Nat) (s : State) :
    (s.withFetchWord nbits word).mixnum = s.mixnum := rfl
@[simp] theorem withFetchWord_mixden (nbits word : Nat) (s : State) :
    (s.withFetchWord nbits word).mixden = s.mixden := rfl
@[simp] theorem withFetchWord_scorenum (nbits word : Nat) (s : State) :
    (s.withFetchWord nbits word).scorenum = s.scorenum := rfl
@[simp] theorem withFetchWord_msg (nbits word : Nat) (s : State) :
    (s.withFetchWord nbits word).msg = s.msg := rfl
@[simp] theorem withFetchWord_seq (nbits word : Nat) (s : State) :
    (s.withFetchWord nbits word).seq = .idle := rfl
@[simp] theorem withFetchWord_pending (nbits word : Nat) (s : State) :
    (s.withFetchWord nbits word).pending = .regWrite (regAddress .cmd) (commandWordOf nbits word) :: s.pending := rfl
@[simp] theorem withFetchWord_response (nbits word : Nat) (s : State) :
    (s.withFetchWord nbits word).response = s.response := rfl

/-! ### STATUS -/

@[simp] theorem statusOnSuccess_dv (st : Status) : (statusOnSuccess st).dv = st.dv := rfl
@[simp] theorem statusOnSuccess_av (st : Status) : (statusOnSuccess st).av = st.av := rfl
@[simp] theorem statusOnSuccess_xv (st : Status) : (statusOnSuccess st).xv = st.xv := rfl
@[simp] theorem statusOnSuccess_ev (st : Status) : (statusOnSuccess st).ev = st.ev := rfl
@[simp] theorem statusOnSuccess_mv (st : Status) : (statusOnSuccess st).mv = st.mv := rfl
@[simp] theorem statusOnSuccess_xge4 (st : Status) : (statusOnSuccess st).xge4 = st.xge4 := rfl
@[simp] theorem statusOnSuccess_mgt4 (st : Status) : (statusOnSuccess st).mgt4 = st.mgt4 := rfl
@[simp] theorem statusOnSuccess_errcode (st : Status) : (statusOnSuccess st).errcode = 0 := rfl
@[simp] theorem statusOnError_digest_dv (e : CommandError) (st : Status) :
    (statusOnError .digest e st).dv = false := rfl
@[simp] theorem statusOnError_digest_av (e : CommandError) (st : Status) :
    (statusOnError .digest e st).av = st.av := rfl
@[simp] theorem statusOnError_digest_xv (e : CommandError) (st : Status) :
    (statusOnError .digest e st).xv = st.xv := rfl
@[simp] theorem statusOnError_digest_ev (e : CommandError) (st : Status) :
    (statusOnError .digest e st).ev = st.ev := rfl
@[simp] theorem statusOnError_digest_mv (e : CommandError) (st : Status) :
    (statusOnError .digest e st).mv = st.mv := rfl
@[simp] theorem statusOnError_digest_xge4 (e : CommandError) (st : Status) :
    (statusOnError .digest e st).xge4 = st.xge4 := rfl
@[simp] theorem statusOnError_digest_mgt4 (e : CommandError) (st : Status) :
    (statusOnError .digest e st).mgt4 = st.mgt4 := rfl
@[simp] theorem statusOnError_digest_errcode (e : CommandError) (st : Status) :
    (statusOnError .digest e st).errcode = errorCode e := rfl
@[simp] theorem statusOnError_avalanche_dv (e : CommandError) (st : Status) :
    (statusOnError .avalanche e st).dv = st.dv := rfl
@[simp] theorem statusOnError_avalanche_av (e : CommandError) (st : Status) :
    (statusOnError .avalanche e st).av = false := rfl
@[simp] theorem statusOnError_avalanche_xv (e : CommandError) (st : Status) :
    (statusOnError .avalanche e st).xv = st.xv := rfl
@[simp] theorem statusOnError_avalanche_ev (e : CommandError) (st : Status) :
    (statusOnError .avalanche e st).ev = st.ev := rfl
@[simp] theorem statusOnError_avalanche_mv (e : CommandError) (st : Status) :
    (statusOnError .avalanche e st).mv = st.mv := rfl
@[simp] theorem statusOnError_avalanche_xge4 (e : CommandError) (st : Status) :
    (statusOnError .avalanche e st).xge4 = st.xge4 := rfl
@[simp] theorem statusOnError_avalanche_mgt4 (e : CommandError) (st : Status) :
    (statusOnError .avalanche e st).mgt4 = st.mgt4 := rfl
@[simp] theorem statusOnError_avalanche_errcode (e : CommandError) (st : Status) :
    (statusOnError .avalanche e st).errcode = errorCode e := rfl
@[simp] theorem statusOnError_noResult_dv (e : CommandError) (st : Status) :
    (statusOnError .noResult e st).dv = st.dv := rfl
@[simp] theorem statusOnError_noResult_av (e : CommandError) (st : Status) :
    (statusOnError .noResult e st).av = st.av := rfl
@[simp] theorem statusOnError_noResult_xv (e : CommandError) (st : Status) :
    (statusOnError .noResult e st).xv = st.xv := rfl
@[simp] theorem statusOnError_noResult_ev (e : CommandError) (st : Status) :
    (statusOnError .noResult e st).ev = st.ev := rfl
@[simp] theorem statusOnError_noResult_mv (e : CommandError) (st : Status) :
    (statusOnError .noResult e st).mv = st.mv := rfl
@[simp] theorem statusOnError_noResult_xge4 (e : CommandError) (st : Status) :
    (statusOnError .noResult e st).xge4 = st.xge4 := rfl
@[simp] theorem statusOnError_noResult_mgt4 (e : CommandError) (st : Status) :
    (statusOnError .noResult e st).mgt4 = st.mgt4 := rfl
@[simp] theorem statusOnError_noResult_errcode (e : CommandError) (st : Status) :
    (statusOnError .noResult e st).errcode = errorCode e := rfl
@[simp] theorem Status.zero_dv : Status.zero.dv = false := rfl
@[simp] theorem Status.zero_av : Status.zero.av = false := rfl
@[simp] theorem Status.zero_xv : Status.zero.xv = false := rfl
@[simp] theorem Status.zero_ev : Status.zero.ev = false := rfl
@[simp] theorem Status.zero_mv : Status.zero.mv = false := rfl
@[simp] theorem Status.zero_xge4 : Status.zero.xge4 = false := rfl
@[simp] theorem Status.zero_mgt4 : Status.zero.mgt4 = false := rfl
@[simp] theorem Status.zero_errcode : Status.zero.errcode = 0 := rfl

/-! ### The two host writes -/

@[simp] theorem msgWrite_cfg (addr : BitVec 64) (b : Byte) (s : State) :
    (msgWrite addr b s).cfg = s.cfg := by unfold msgWrite; split <;> rfl
@[simp] theorem msgWrite_mlen (addr : BitVec 64) (b : Byte) (s : State) :
    (msgWrite addr b s).mlen = s.mlen := by unfold msgWrite; split <;> rfl
@[simp] theorem msgWrite_bitpos (addr : BitVec 64) (b : Byte) (s : State) :
    (msgWrite addr b s).bitpos = s.bitpos := by unfold msgWrite; split <;> rfl
@[simp] theorem msgWrite_status (addr : BitVec 64) (b : Byte) (s : State) :
    (msgWrite addr b s).status = s.status := by unfold msgWrite; split <;> rfl
@[simp] theorem msgWrite_h (addr : BitVec 64) (b : Byte) (s : State) :
    (msgWrite addr b s).h = s.h := by unfold msgWrite; split <;> rfl
@[simp] theorem msgWrite_w (addr : BitVec 64) (b : Byte) (s : State) :
    (msgWrite addr b s).w = s.w := by unfold msgWrite; split <;> rfl
@[simp] theorem msgWrite_f (addr : BitVec 64) (b : Byte) (s : State) :
    (msgWrite addr b s).f = s.f := by unfold msgWrite; split <;> rfl
@[simp] theorem msgWrite_ref (addr : BitVec 64) (b : Byte) (s : State) :
    (msgWrite addr b s).ref = s.ref := by unfold msgWrite; split <;> rfl
@[simp] theorem msgWrite_avcnt (addr : BitVec 64) (b : Byte) (s : State) :
    (msgWrite addr b s).avcnt = s.avcnt := by unfold msgWrite; split <;> rfl
@[simp] theorem msgWrite_xcm (addr : BitVec 64) (b : Byte) (s : State) :
    (msgWrite addr b s).xcm = s.xcm := by unfold msgWrite; split <;> rfl
@[simp] theorem msgWrite_xmin (addr : BitVec 64) (b : Byte) (s : State) :
    (msgWrite addr b s).xmin = s.xmin := by unfold msgWrite; split <;> rfl
@[simp] theorem msgWrite_xent (addr : BitVec 64) (b : Byte) (s : State) :
    (msgWrite addr b s).xent = s.xent := by unfold msgWrite; split <;> rfl
@[simp] theorem msgWrite_mixnum (addr : BitVec 64) (b : Byte) (s : State) :
    (msgWrite addr b s).mixnum = s.mixnum := by unfold msgWrite; split <;> rfl
@[simp] theorem msgWrite_mixden (addr : BitVec 64) (b : Byte) (s : State) :
    (msgWrite addr b s).mixden = s.mixden := by unfold msgWrite; split <;> rfl
@[simp] theorem msgWrite_scorenum (addr : BitVec 64) (b : Byte) (s : State) :
    (msgWrite addr b s).scorenum = s.scorenum := by unfold msgWrite; split <;> rfl
@[simp] theorem msgWrite_seq (addr : BitVec 64) (b : Byte) (s : State) :
    (msgWrite addr b s).seq = s.seq := by unfold msgWrite; split <;> rfl
@[simp] theorem msgWrite_pending (addr : BitVec 64) (b : Byte) (s : State) :
    (msgWrite addr b s).pending = s.pending := by unfold msgWrite; split <;> rfl
@[simp] theorem msgWrite_response (addr : BitVec 64) (b : Byte) (s : State) :
    (msgWrite addr b s).response = s.response := by unfold msgWrite; split <;> rfl
@[simp] theorem regWrite_cfg (a : BitVec 11) (v : Word) (s : State) :
    (regWrite a v s).cfg = s.cfg := by unfold regWrite; split <;> rfl
@[simp] theorem regWrite_status (a : BitVec 11) (v : Word) (s : State) :
    (regWrite a v s).status = s.status := by unfold regWrite; split <;> rfl
@[simp] theorem regWrite_h (a : BitVec 11) (v : Word) (s : State) :
    (regWrite a v s).h = s.h := by unfold regWrite; split <;> rfl
@[simp] theorem regWrite_w (a : BitVec 11) (v : Word) (s : State) :
    (regWrite a v s).w = s.w := by unfold regWrite; split <;> rfl
@[simp] theorem regWrite_f (a : BitVec 11) (v : Word) (s : State) :
    (regWrite a v s).f = s.f := by unfold regWrite; split <;> rfl
@[simp] theorem regWrite_ref (a : BitVec 11) (v : Word) (s : State) :
    (regWrite a v s).ref = s.ref := by unfold regWrite; split <;> rfl
@[simp] theorem regWrite_avcnt (a : BitVec 11) (v : Word) (s : State) :
    (regWrite a v s).avcnt = s.avcnt := by unfold regWrite; split <;> rfl
@[simp] theorem regWrite_xcm (a : BitVec 11) (v : Word) (s : State) :
    (regWrite a v s).xcm = s.xcm := by unfold regWrite; split <;> rfl
@[simp] theorem regWrite_xmin (a : BitVec 11) (v : Word) (s : State) :
    (regWrite a v s).xmin = s.xmin := by unfold regWrite; split <;> rfl
@[simp] theorem regWrite_xent (a : BitVec 11) (v : Word) (s : State) :
    (regWrite a v s).xent = s.xent := by unfold regWrite; split <;> rfl
@[simp] theorem regWrite_mixnum (a : BitVec 11) (v : Word) (s : State) :
    (regWrite a v s).mixnum = s.mixnum := by unfold regWrite; split <;> rfl
@[simp] theorem regWrite_mixden (a : BitVec 11) (v : Word) (s : State) :
    (regWrite a v s).mixden = s.mixden := by unfold regWrite; split <;> rfl
@[simp] theorem regWrite_scorenum (a : BitVec 11) (v : Word) (s : State) :
    (regWrite a v s).scorenum = s.scorenum := by unfold regWrite; split <;> rfl
@[simp] theorem regWrite_msg (a : BitVec 11) (v : Word) (s : State) :
    (regWrite a v s).msg = s.msg := by unfold regWrite; split <;> rfl
@[simp] theorem regWrite_seq (a : BitVec 11) (v : Word) (s : State) :
    (regWrite a v s).seq = s.seq := by unfold regWrite; split <;> rfl
@[simp] theorem regWrite_pending (a : BitVec 11) (v : Word) (s : State) :
    (regWrite a v s).pending = s.pending := by unfold regWrite; split <;> rfl
@[simp] theorem regWrite_response (a : BitVec 11) (v : Word) (s : State) :
    (regWrite a v s).response = s.response := by unfold regWrite; split <;> rfl

end Sys2Proof.Machine
end

