-- ==== Sys2Proof/Laws/Ops.lean ====
section
/-! SUPPORT. For each shared operation one lemma that says once everything it can do. -/

namespace Sys2Proof.Machine

/-- The outcome of the length checks, with what each answer means (R201, R202, R208). -/
theorem lengthError_cases (s : State) :
    (2 ^ 61 ≤ msgLen s ∧ lengthError s = some .lenOverflow) ∨
    (msgLen s < 2 ^ 61 ∧ s.cfg.msgCap < msgLen s ∧ lengthError s = some .msgRange) ∨
    (msgLen s < 2 ^ 61 ∧ msgLen s ≤ s.cfg.msgCap ∧ lengthError s = none) := by
  unfold lengthError
  split
  · exact .inl ⟨‹_›, rfl⟩
  · split
    · exact .inr (.inl ⟨by omega, ‹_›, rfl⟩)
    · exact .inr (.inr ⟨by omega, by omega, rfl⟩)

/-- The length checks pass exactly for a length in range. -/
theorem lengthError_eq_none (s : State) :
    lengthError s = none ↔ msgLen s < 2 ^ 61 ∧ msgLen s ≤ s.cfg.msgCap := by
  rcases lengthError_cases s with h | h | h
  · simp [h.2]; omega
  · simp [h.2.2]; omega
  · simp [h.2.2]; omega

/-- The outcome of AVAL's checks, with what each answer means (R203, R208). -/
theorem avalError_cases (s : State) :
    (∃ e, lengthError s = some e ∧ avalError s = some e) ∨
    (lengthError s = none ∧ 8 * msgLen s ≤ flipPos s ∧ avalError s = some .bitposRange) ∨
    (lengthError s = none ∧ flipPos s < 8 * msgLen s ∧ avalError s = none) := by
  unfold avalError
  cases h : lengthError s with
  | some e => exact .inl ⟨e, rfl, rfl⟩
  | none =>
    by_cases hp : 8 * msgLen s ≤ flipPos s
    · exact .inr (.inl ⟨rfl, hp, by simp [hp]⟩)
    · exact .inr (.inr ⟨rfl, by omega, by simp [hp]⟩)

/-- AVAL's checks pass exactly for a length and a position in range. -/
theorem avalError_eq_none (s : State) :
    avalError s = none ↔ msgLen s < 2 ^ 61 ∧ msgLen s ≤ s.cfg.msgCap ∧ flipPos s < 8 * msgLen s := by
  rw [← and_assoc, ← lengthError_eq_none]
  rcases avalError_cases s with ⟨e, h, h'⟩ | ⟨h, hp, h'⟩ | ⟨h, hp, h'⟩ <;> simp [h, h'] <;> omega

/-- Everything HASH can do. -/
theorem exec_hash_cases {s t : State} (h : exec .hash s = .next t) :
    (∃ e, lengthError s = some e ∧ t = raiseError .digest e s) ∨
    (lengthError s = none ∧
      t = succeed (fun st => { st with dv := true }) (runPipeline (msgByte s) s)) := by
  simp only [exec, execHash] at h
  split at h
  · exact .inl ⟨_, ‹_›, (Host.Outcome.next.inj h).symm⟩
  · exact .inr ⟨‹_›, (Host.Outcome.next.inj h).symm⟩

/-- Everything AVAL can do. -/
theorem exec_aval_cases {s t : State} (h : exec .aval s = .next t) :
    (∃ e, avalError s = some e ∧ t = raiseError .avalanche e s) ∨
    (avalError s = none ∧
      t = succeed (fun st => { st with av := true, dv := true }) (runAvalanche s)) := by
  simp only [exec, execAval] at h
  split at h
  · exact .inl ⟨_, ‹_›, (Host.Outcome.next.inj h).symm⟩
  · exact .inr ⟨‹_›, (Host.Outcome.next.inj h).symm⟩

/-- Everything XCM can do. -/
theorem exec_xcm_cases {s t : State} (h : exec .xcm s = .next t) :
    t = succeed (fun st => { st with xge4 := xge4Of cancelMin, xv := true })
      { s with xcm := cancelMatrix, xmin := BitVec.ofNat 3 cancelMin } :=
  (Host.Outcome.next.inj h).symm

/-- Everything XCME can do. -/
theorem exec_xcme_cases {i j : BitVec 5} {s t : State} (h : exec (.xcme i j) s = .next t) :
    t = succeed (fun st => { st with ev := true }) { s with xent := BitVec.ofNat 3 (cancelEntry i j) } :=
  (Host.Outcome.next.inj h).symm

/-- Everything MIX can do. -/
theorem exec_mix_cases {s t : State} (h : exec .mix s = .next t) :
    t = succeed (fun st => { st with mgt4 := mgt4Of (scoreNumerator s.cfg) s.cfg.mixInvOps, mv := true })
      { s with
        mixnum := BitVec.ofNat 16 s.cfg.mixMixOps
        mixden := BitVec.ofNat 16 s.cfg.mixInvOps
        scorenum := BitVec.ofNat 21 (scoreNumerator s.cfg) } :=
  (Host.Outcome.next.inj h).symm

/-- Everything CLR can do. -/
theorem exec_clr_cases {s t : State} (h : exec .clr s = .next t) : t = clearResults s :=
  (Host.Outcome.next.inj h).symm

/-- Everything a CMD write can do. -/
theorem runCommand_cases {c : Word} {s t : State} (h : runCommand c s = .next t) :
    (∃ i, decode c = .ok i ∧ exec i s = .next t) ∨
    (∃ e, decode c = .error e ∧ t = raiseError .noResult .illegalCmd s) := by
  unfold runCommand at h
  split at h
  · exact .inl ⟨_, ‹_›, h⟩
  · exact .inr ⟨_, ‹_›, (Host.Outcome.next.inj h).symm⟩

/-- Everything one host operation can do. -/
theorem transact_cases {op : HostOp} {rest : List HostOp} {s t : State} (h : transact op rest s = .next t) :
    (∃ a, op = .regRead a ∧ t = accept rest (.word (regRead a s)) s) ∨
    (∃ v, op = .regWrite (regAddress .cmd) v ∧ runCommand v (accept rest .done s) = .next t) ∨
    (∃ a v, op = .regWrite a v ∧ a ≠ regAddress .cmd ∧ t = regWrite a v (accept rest .done s)) ∨
    (∃ addr, op = .msgRead addr ∧ t = accept rest (.byte (msgRead addr s)) s) ∨
    (∃ addr b, op = .msgWrite addr b ∧ t = msgWrite addr b (accept rest .done s)) ∨
    (op = .reset ∧ t = resetEvent (accept rest .done s)) := by
  cases op with
  | regRead a => exact .inl ⟨a, rfl, (Host.Outcome.next.inj h).symm⟩
  | regWrite a v =>
    simp only [transact] at h
    split at h
    · rename_i ha
      exact .inr (.inl ⟨v, by rw [ha], h⟩)
    · exact .inr (.inr (.inl ⟨a, v, rfl, ‹_›, (Host.Outcome.next.inj h).symm⟩))
  | msgRead addr => exact .inr (.inr (.inr (.inl ⟨addr, rfl, (Host.Outcome.next.inj h).symm⟩)))
  | msgWrite addr b => exact .inr (.inr (.inr (.inr (.inl ⟨addr, b, rfl, (Host.Outcome.next.inj h).symm⟩))))
  | reset => exact .inr (.inr (.inr (.inr (.inr ⟨rfl, (Host.Outcome.next.inj h).symm⟩))))

/-- Everything a step can do. -/
theorem step_cases {s t : State} (h : step s = .next t) :
    s.cfg.legal = true ∧
    ((s.seq = .idle ∧ s.pending = [] ∧ t = s) ∨
     (∃ op rest, s.seq = .idle ∧ s.pending = op :: rest ∧ transact op rest s = .next t) ∨
     (s.seq ≠ .idle ∧ t = seqStep s)) := by
  unfold step at h
  split at h
  · rename_i hl
    refine ⟨hl, ?_⟩
    split at h
    · exact .inl ⟨‹_›, ‹_›, (Host.Outcome.next.inj h).symm⟩
    · exact .inr (.inl ⟨_, _, ‹_›, ‹_›, h⟩)
    · rename_i hn hn'
      refine .inr (.inr ⟨fun hi => ?_, (Host.Outcome.next.inj h).symm⟩)
      cases hp : s.pending with
      | nil => exact hn hi hp
      | cons op rest => exact hn' op rest hi hp
  · cases h

/-- An idle legal block performs the oldest host operation. -/
theorem step_idle_cons {s : State} {op : HostOp} {rest : List HostOp} (hl : s.cfg.legal = true)
    (hi : s.seq = .idle) (hp : s.pending = op :: rest) : step s = transact op rest s := by
  simp [step, hl, hi, hp]

/-- Everything a register write can do: one of the four halves, or nothing (R56). -/
theorem regWrite_cases (a : BitVec 11) (v : Word) (s : State) :
    (regAt a = some .mlenLo ∧ regWrite a v s = { s with mlen := writeLow s.mlen v }) ∨
    (regAt a = some .mlenHi ∧ regWrite a v s = { s with mlen := writeHigh s.mlen v }) ∨
    (regAt a = some .bitposLo ∧ regWrite a v s = { s with bitpos := writeLow s.bitpos v }) ∨
    (regAt a = some .bitposHi ∧ regWrite a v s = { s with bitpos := writeHigh s.bitpos v }) ∨
    (regWrite a v s = s) := by
  unfold regWrite
  split
  · exact .inl ⟨‹_›, rfl⟩
  · exact .inr (.inl ⟨‹_›, rfl⟩)
  · exact .inr (.inr (.inl ⟨‹_›, rfl⟩))
  · exact .inr (.inr (.inr (.inl ⟨‹_›, rfl⟩)))
  · exact .inr (.inr (.inr (.inr rfl)))

end Sys2Proof.Machine
end

