-- ==== Sys2Proof/Laws/PerInstr.lean ====
section
/-! SUPPORT. Facts about every command as syntax, one lemma per constructor of `Instr`. -/

namespace Sys2Proof.Laws

/-- An instruction is well formed and its encoding selects its own row of R74 (`c AND mask = match`). -/
def EncodesInRow.Statement (i : Instr) : Prop :=
  i.wellFormed = true ∧ encode i &&& rowMask i = rowMatch i

theorem EncodesInRow.hash : EncodesInRow.Statement .hash := by
  unfold EncodesInRow.Statement; decide

theorem EncodesInRow.aval : EncodesInRow.Statement .aval := by
  unfold EncodesInRow.Statement; decide

theorem EncodesInRow.xcm : EncodesInRow.Statement .xcm := by
  unfold EncodesInRow.Statement; decide

theorem EncodesInRow.xcme (i j : BitVec 5) : EncodesInRow.Statement (.xcme i j) := by
  unfold EncodesInRow.Statement
  decide +revert +kernel

theorem EncodesInRow.mix : EncodesInRow.Statement .mix := by
  unfold EncodesInRow.Statement; decide

theorem EncodesInRow.clr : EncodesInRow.Statement .clr := by
  unfold EncodesInRow.Statement; decide

end Sys2Proof.Laws
end

