-- ==== Sys2Proof/Laws/Units.lean ====
section
/-! SUPPORT. Small facts about the units the statements rest on: bounds of the counts, running the sequencer in parts, and
which fields each clause of `State.Consistent` reads. -/

namespace Sys2Proof.Machine

/-- `K[t]` is word `t mod 8` of row `t div 8` of R27. -/
theorem defaultK_eq_row (t : Fin 24) : Config.defaultK[t] = Config.kRows[t.val / 8][t.val % 8] := by
  simp [Config.defaultK]

/-- `IV[x]` is word `x mod 8` of row `x div 8` of R28. -/
theorem defaultIV_eq_row (x : Fin 16) : Config.defaultIV[x] = Config.ivRows[x.val / 8][x.val % 8] := by
  simp [Config.defaultIV]

/-- A word has at most 32 bits set (R102). -/
theorem popcount_le (x : Word) : popcount x ≤ 32 := by
  unfold popcount
  exact List.countP_le_length.trans (by simp)

/-- Two digests differ in at most 256 bits (R32). -/
theorem digestDistance_le (x y : Vector Word 8) : digestDistance x y ≤ 256 := by
  have h : ∀ l : List (Fin 8), (l.map fun i => popcount (x[i] ^^^ y[i])).sum ≤ 32 * l.length := by
    intro l
    induction l with
    | nil => simp
    | cons a l ih =>
      have := popcount_le (x[a] ^^^ y[a])
      simp only [List.map_cons, List.sum_cons, List.length_cons]
      omega
  simpa [digestDistance] using h (List.finRange 8)

/-- Running the sequencer in two parts. -/
theorem seqRun_add (a b : Nat) (s : State) : seqRun (a + b) s = seqRun b (seqRun a s) := by
  induction a generalizing s with
  | zero => simp [seqRun]
  | succ a ih => rw [Nat.succ_add, seqRun, ih, seqRun]

@[simp] theorem seqRun_one (s : State) : seqRun 1 s = seqStep s := rfl

/-- An idle sequencer stays idle. -/
theorem seqStep_idle {s : State} (h : s.seq = .idle) : seqStep s = s := by
  unfold seqStep
  rw [h]

/-- One expander step reads only words below the one it writes. -/
theorem expandStep_agree {x y : Vector Word 24} (i : Fin 8)
    (h : ∀ (k : Nat) (hk : k < 24), k < 16 + i.val → x[k] = y[k]) :
    ∀ (k : Nat) (hk : k < 24), k < 16 + i.val + 1 → (expandStep x i)[k] = (expandStep y i)[k] := by
  intro k hk hlt
  have e : expandedWord x i = expandedWord y i := by
    unfold expandedWord
    rw [h _ _ (by omega), h _ _ (by omega), h _ _ (by omega), h _ _ (by omega), h _ _ (by omega), h _ _ (by omega)]
  by_cases hki : 16 + i.val = k
  · subst hki
    simp [expandStep, e]
  · rw [expandStep, expandStep, Vector.getElem_set_ne _ _ hki, Vector.getElem_set_ne _ _ hki]
    exact h k hk (by omega)

/-- Loading a block and expanding it gives its schedule, whatever W held before (R122, R123 (e)). -/
theorem expand_loadBlock (w : Vector Word 24) (b : Vector Byte 64) :
    (List.finRange 8).foldl expandStep (loadBlock w b) = schedule b := by
  have hl : List.finRange 8 = [0, 1, 2, 3, 4, 5, 6, 7] := by decide
  have h0 : ∀ (k : Nat) (hk : k < 24), k < 16 + (0 : Fin 8).val →
      (loadBlock w b)[k] = (loadBlock (Vector.replicate 24 0) b)[k] := by
    intro k hk hlt
    have h16 : k < 16 := hlt
    simp [loadBlock, h16]
  have h8 := expandStep_agree 7 (expandStep_agree 6 (expandStep_agree 5 (expandStep_agree 4 (expandStep_agree 3
    (expandStep_agree 2 (expandStep_agree 1 (expandStep_agree 0 h0)))))))
  unfold schedule
  rw [hl]
  exact Vector.ext fun k hk => h8 k hk hk

theorem memoryCanonical_congr {s t : State} (hm : t.msg = s.msg) (hc : t.cfg = s.cfg) :
    t.memoryCanonical ↔ s.memoryCanonical := by
  simp [State.memoryCanonical, hm, hc]

theorem digestConsistent_congr {s t : State} (hd : t.status.dv = s.status.dv) (hf : t.f = s.f) (hh : t.h = s.h)
    (hw : t.w = s.w) (hc : t.cfg = s.cfg) : t.digestConsistent ↔ s.digestConsistent := by
  simp [State.digestConsistent, hd, hf, hh, hw, hc]

theorem matrixConsistent_congr {s t : State} (hv : t.status.xv = s.status.xv) (hg : t.status.xge4 = s.status.xge4)
    (hx : t.xcm = s.xcm) (hm : t.xmin = s.xmin) : t.matrixConsistent ↔ s.matrixConsistent := by
  simp only [State.matrixConsistent, hv, hg, hx, hm]

theorem entryConsistent_congr {s t : State} (hv : t.status.ev = s.status.ev) (hx : t.xent = s.xent) :
    t.entryConsistent ↔ s.entryConsistent := by
  simp only [State.entryConsistent, hv, hx]

theorem mixConsistent_congr {s t : State} (hv : t.status.mv = s.status.mv) (hg : t.status.mgt4 = s.status.mgt4)
    (hn : t.mixnum = s.mixnum) (hd : t.mixden = s.mixden) (hs : t.scorenum = s.scorenum) (hc : t.cfg = s.cfg) :
    t.mixConsistent ↔ s.mixConsistent := by
  simp only [State.mixConsistent, hv, hg, hn, hd, hs, hc]

end Sys2Proof.Machine
end

