-- ==== Sys2Proof/Tests/Slice0.lean ====
section
/-! SUPPORT. The model's own tests. Expected values are those of the spec (the section is named at each test) or follow
from its encodings by hand. After them, for every statement with hypotheses, a state and operands that meet them. -/

namespace Sys2Proof.Machine

/-! ### Small states -/

/-- The state after reset with `ops` issued. -/
def idleWith (ops : List HostOp) : State := { State.reset with pending := ops }

/-- The state after reset with a message in MSG and MLEN, and a bit position. -/
def withMessage (bytes : Memory) (len pos : Nat) : State :=
  { State.reset with msg := bytes, mlen := BitVec.ofNat 64 len, bitpos := BitVec.ofNat 64 pos }

/-- A view of a next state; of a fault or a refusal, none. -/
def viewNext {α : Type} (view : State → α) : Host.Outcome State Fault Refusal → Option α
  | .next t => some (view t)
  | .fault _ => none
  | .refused _ => none

/-! ### Well-formedness: each check refuses an ill-formed term -/

theorem test_legal_sample : Config.sample.legal = true := by decide
theorem test_legal_refuses_zero_inv_ops : (Config.withOpen 4096 0 7).legal = false := by decide
theorem test_legal_refuses_large_inv_ops : (Config.withOpen 4096 65536 7).legal = false := by decide
theorem test_legal_refuses_large_mix_ops : (Config.withOpen 4096 10 65536).legal = false := by decide
theorem test_legal_refuses_large_cap : (Config.withOpen (2 ^ 64) 10 7).legal = false := by decide
theorem test_legal_at_bounds : (Config.withOpen 0 1 0).legal = true ∧
    (Config.withOpen (2 ^ 64 - 1) 65535 65535).legal = true := by decide
/-- R73: no instruction is ill formed; every 5-bit value is a legal index, the largest too. -/
theorem test_wellFormed_largest_indices : (Instr.xcme 31 31).wellFormed = true := by decide

/-! ### Decoding: words written out bit by bit (30_encoding R71, R72; 95 section 11) -/

theorem test_decode_hash : decode 0b00000000000000000000000000000001#32 = .ok .hash := by decide
theorem test_decode_aval : decode 0b00000000000000000000000000000010#32 = .ok .aval := by decide
theorem test_decode_xcm : decode 0b00000000000000000000000000000011#32 = .ok .xcm := by decide
/-- i = 31 in bits 12:8, j = 3 in bits 20:16. -/
theorem test_decode_xcme : decode 0b00000000000000110001111100000100#32 = .ok (.xcme 31 3) := by decide
theorem test_decode_mix : decode 0b00000000000000000000000000000101#32 = .ok .mix := by decide
theorem test_decode_clr : decode 0b00000000000000000000000000001111#32 = .ok .clr := by decide
theorem test_decode_refuses_opcodes : decode 0x00 = .error .unassignedOpcode ∧
    decode 0x06 = .error .unassignedOpcode ∧ decode 0x0E = .error .unassignedOpcode ∧
    decode 0x10 = .error .unassignedOpcode ∧ decode 0xFF = .error .unassignedOpcode := by decide
theorem test_decode_refuses_fields : decode 0x80000001 = .error .mustBeZeroFieldSet ∧
    decode 0x00002004 = .error .mustBeZeroFieldSet ∧ decode 0x00200004 = .error .mustBeZeroFieldSet ∧
    decode 0x0100000F = .error .mustBeZeroFieldSet := by decide
theorem test_decodeTableWord : decodeTableWord 32 0x001F1F04 = some (.xcme 31 31) ∧
    decodeTableWord 32 0 = none ∧ decodeTableWord 8 0x101 = some .hash := by decide

/-! ### Word primitives (95 section 2) -/

theorem test_rotations : rotl 0x80000001 1 = 0x00000003 ∧ rotr 0x80000001 31 = 0x00000003 ∧
    rotr 0x12345678 8 = 0x78123456 ∧ rotl 0x80000001 0 = 0x80000001 ∧ shr 0xffffffff 13 = 0x0007ffff := by decide
theorem test_arithmetic :
    add32 [0xffffffff, 0xffffffff, 0xffffffff, 0xffffffff, 0xffffffff] = 0xfffffffb ∧
    mul32 0x12345678 0x9abcdef0 = 0x242d2080 ∧ mul32 0x80000000 2 = 0 := by decide
theorem test_selectors : ch 0xf0f0f0f0 0x12345678 0x9abcdef0 = 0x1a3c5e70 ∧
    maj 0xffff0000 0xff00ff00 0xf0f0f0f0 = 0xfff0f000 := by decide
theorem test_sigmas : sigma0 0x6a09e667 = 0xce20b47e ∧ sigma1 0x6a09e667 = 0x55b65510 ∧
    smallSigma0 0x12345678 = 0xe7fce6ee ∧ smallSigma1 0x12345678 = 0xa1f78649 := by decide
theorem test_popcount : popcount 0x40080400 = 3 ∧ popcount 0xffffffff = 32 := by decide

/-- R99, R100: the third term is a shift. -/
theorem test_small_sigmas_shift : smallSigma0 0xffffffff = 0x1fffffff ∧ smallSigma0 1 = 0x02004000 ∧
    smallSigma0 0x80000000 = 0x11002000 ∧ smallSigma1 0xffffffff = 0x003fffff ∧ smallSigma1 1 = 0x0000a000 ∧
    smallSigma1 0x80000000 = 0x00205000 := by decide

/-! ### The constants (R27, R28) -/

/-- `K[t] = floor(frac(cbrt(p)) * 2^32)`: with the whole part of the cube root in front, the word is the integer cube root
of `p * 2^96`. -/
theorem test_k_is_cube_roots :
    ([2, 3, 5, 7, 11, 13, 17, 19, 23, 29, 31, 37, 41, 43, 47, 53, 59, 61, 67, 71, 73, 79, 83, 89].zip
      Config.defaultK.toList).all (fun pk => (List.range 5).any fun whole =>
        let root := whole * 2 ^ 32 + pk.2.toNat
        decide (root ^ 3 ≤ pk.1 * 2 ^ 96 ∧ pk.1 * 2 ^ 96 < (root + 1) ^ 3)) = true := by decide +kernel

/-- `IV[x] = floor(frac(sqrt(p)) * 2^32)`, in the same way. -/
theorem test_iv_is_square_roots :
    ([2, 3, 5, 7, 11, 13, 17, 19, 23, 29, 31, 37, 41, 43, 47, 53].zip Config.defaultIV.toList).all (fun pv =>
      (List.range 8).any fun whole =>
        let root := whole * 2 ^ 32 + pv.2.toNat
        decide (root ^ 2 ≤ pv.1 * 2 ^ 64 ∧ pv.1 * 2 ^ 64 < (root + 1) ^ 2)) = true := by decide +kernel

/-! ### Padding (95 section 3) -/

theorem test_padding_counts : [0, 54, 55, 56, 57, 119, 120, 1000].map (fun n => (zeroCount n, numBlocks n)) =
    [(55, 1), (1, 1), (0, 1), (63, 2), (62, 2), (0, 2), (63, 3), (15, 16)] := by decide
/-- The length field of L = 1000 is 00 .. 00 1F 40, in the last bytes of block 15. -/
theorem test_padding_length_field :
    paddedByte (fun _ => 0x41) 1000 1022 = 0x1F ∧ paddedByte (fun _ => 0x41) 1000 1023 = 0x40 ∧
    paddedByte (fun _ => 0x41) 1000 1000 = 0x80 ∧ paddedByte (fun _ => 0x41) 1000 999 = 0x41 := by decide
theorem test_padding_largest_length : byteBe (8 * (2 ^ 61 - 1)) 8 7 = 0xF8 ∧ byteBe (8 * (2 ^ 61 - 1)) 8 0 = 0xFF := by
  decide

/-! ### Expander, round, permutation, finalization (95 sections 4 to 6) -/

/-- The counting block 00 01 .. 3f. -/
theorem test_schedule_counting_block :
    (schedule (Vector.ofFn fun q : Fin 64 => BitVec.ofNat 8 q.val))[0] = 0x00010203 ∧
    (schedule (Vector.ofFn fun q : Fin 64 => BitVec.ofNat 8 q.val))[16] = 0x8a01d719 ∧
    (schedule (Vector.ofFn fun q : Fin 64 => BitVec.ofNat 8 q.val))[23] = 0x0165167c := by decide +kernel
/-- R142. -/
theorem test_round_zero_of_empty_message : roundStep Config.defaultIV 0x428a2f98 0x80000000 =
    #v[0x1d6c5dbd, 0x6a09e667, 0xbb67ae85, 0x715805f7, 0x18c7e2a2, 0x510e527f, 0x9b05688c, 0x50c7779b,
       0x23198dab, 0xcbbb9d5d, 0x629a292a, 0x9055d2e2, 0x5cd4ce14, 0x67332667, 0x8eb44a87, 0xe0b6bd82] := by
  decide +kernel
theorem test_perm : perm #v[0, 1, 2, 3, 4, 5, 6, 7, 8, 9, 10, 11, 12, 13, 14, 15] =
    #v[0, 8, 1, 9, 2, 10, 3, 11, 4, 12, 5, 13, 6, 14, 7, 15] := by decide +kernel
/-- H = 0, both modes. -/
theorem test_finalize_zero :
    pass2 .inplace (pass1 (Vector.replicate 16 0)) =
      #v[0x02000002, 0x02000002, 0x02000002, 0x04000004, 0x04000004, 0x06040004, 0x08040006, 0x1a040010] ∧
    pass2 .snapshot (pass1 (Vector.replicate 16 0)) = Vector.replicate 8 0x02000002 := by decide +kernel

/-! ### The commands -/

/-- 95 S1, the source's known answer, in two halves of the computation: the chaining state (95 section 5.3) ... -/
theorem test_hash_empty_chaining_state : viewNext State.h (exec .hash State.reset) = some
    #v[0x6fc49d39, 0x36988e3d, 0xb6fadaf9, 0x4feb8b0c, 0xe0d85c50, 0x9da4cf68, 0x225cdfc6, 0xc6a56201,
       0x81c8a540, 0x93bd8b03, 0xec1a1e18, 0x7017b54d, 0xa54cacda, 0x9f54e686, 0x9a6fee47, 0x13065b0e] := by
  decide +kernel
/-- ... and the digest from it (R156). -/
theorem test_finalize_empty : pass2 .inplace (pass1
    #v[0x6fc49d39, 0x36988e3d, 0xb6fadaf9, 0x4feb8b0c, 0xe0d85c50, 0x9da4cf68, 0x225cdfc6, 0xc6a56201,
       0x81c8a540, 0x93bd8b03, 0xec1a1e18, 0x7017b54d, 0xa54cacda, 0x9f54e686, 0x9a6fee47, 0x13065b0e]) =
    #v[0x9565fdf9, 0x1892f8fa, 0xc45f0772, 0x3b618632, 0xc210992b, 0xa29f66c0, 0x2d85c95b, 0xefccf88a] := by
  decide +kernel
/-- 95 section 8: "a", position 0 gives AVCNT = 124 and REF[0] = e338bc15. -/
theorem test_aval_a : viewNext (fun t => (t.avcnt, t.ref[0])) (exec .aval (withMessage [(0, 0x61)] 1 0)) =
    some (124, 0xe338bc15) := by decide +kernel
/-- 95 section 11: the errors of AVAL, in their order, on MSG_CAP = 4096. -/
theorem test_aval_errors :
    viewNext (fun t => t.status.errcode) (exec .aval (withMessage [] 12 96)) = some 4 ∧
    viewNext (fun t => t.status.errcode) (exec .aval (withMessage [] 4097 (2 ^ 40))) = some 3 ∧
    viewNext (fun t => t.status.errcode) (exec .aval (withMessage [] (2 ^ 61) 0)) = some 2 ∧
    viewNext (fun t => t.status.errcode) (exec .aval (withMessage [] 0 0)) = some 4 := by decide +kernel
/-- 95 section 9: entries (0, 3), (31, 0) and (31, 31), read through the register port. -/
theorem test_xcm_entries : viewNext (fun t => (regRead 0x403 t, regRead 0x7E0 t, regRead 0x7FF t)) (exec .xcm State.reset)
    = some (4, 6, 6) := by decide +kernel
/-- 95 section 9: XMIN = 4, and STATUS = XV, XGE4. -/
theorem test_xcm_minimum : viewNext (fun t => (t.xmin, regRead 0x001 t)) (exec .xcm State.reset) = some (4, 0x24) := by
  decide +kernel
theorem test_xcme_entries : viewNext State.xent (exec (.xcme 0 3) State.reset) = some 4 ∧
    viewNext State.xent (exec (.xcme 31 31) State.reset) = some 6 ∧
    viewNext State.xent (exec (.xcme 29 0) State.reset) = some 4 := by decide +kernel
/-- 95 section 10, row (10, 7): 7, 10, 168 and MGT4. -/
theorem test_mix : viewNext (fun t => (t.mixnum, t.mixden, t.scorenum, regRead 0x001 t)) (exec .mix State.reset) =
    some (7, 10, 168, 0x50) := by decide +kernel
/-- 95 section 10, row (24, 4): a score of exactly 4 gives MGT4 = 0. -/
theorem test_mix_equality : viewNext (fun t => t.status.mgt4)
    (exec .mix { State.reset with cfg := Config.withOpen 4096 24 4 }) = some false := by decide +kernel
/-- R162: CLR keeps MLEN and BITPOS. -/
theorem test_clr : viewNext (fun t => (t.mlen, t.bitpos, t.xmin))
    (exec .clr { withMessage [] 5 6 with xmin := 4 }) = some (5, 6, 0) := by decide +kernel
/-- R201, R202, at the boundaries: 4096 and 4097 bytes, 2^61 - 1 and 2^61. -/
theorem test_length_boundaries : lengthError (withMessage [] 4096 0) = none ∧
    lengthError (withMessage [] 4097 0) = some .msgRange ∧
    lengthError (withMessage [] (2 ^ 61 - 1) 0) = some .msgRange ∧
    lengthError (withMessage [] (2 ^ 61) 0) = some .lenOverflow ∧
    lengthError { withMessage [] (2 ^ 61 - 1) 0 with cfg := Config.withOpen (2 ^ 61 - 1) 1 0 } = none := by
  decide +kernel

/-! ### The step -/

/-- The word of MIX is fetched and run as the first command. -/
theorem test_step_runs_fetched_word : viewNext State.mixnum (step (State.reset.withFetchWord 32 5)) = some 7 := by
  decide +kernel
/-- R205: an illegal word sets ERRCODE = 1. -/
theorem test_step_illegal_word : viewNext (fun t => regRead 0x001 t) (step (State.reset.withFetchWord 32 0)) =
    some 0x100 := by decide +kernel
theorem test_step_msgWrite : viewNext State.msg (step (idleWith [.msgWrite 3 0x99])) = some [(3, 0x99)] ∧
    viewNext State.msg (step (idleWith [.msgWrite 4096 0x99])) = some [] := by decide +kernel
/-- P4 line 5: K, IV and CAP_LO through the register port. -/
theorem test_constant_windows : regRead 0x060 State.reset = 0x428a2f98 ∧ regRead 0x08F State.reset = 0x47b5481d ∧
    regRead 0x00C State.reset = 0x00001000 := by decide +kernel
/-- The sequencer's first transitions on an empty message: CHECK, LOAD. -/
theorem test_sequencer_load : (seqRun 2 { State.reset with seq := .check .hash }).w[0] = 0x80000000 := by
  decide +kernel

/-! ### Witnesses: the hypotheses of each statement are met -/

theorem witness_DecodeOfEncode : (Instr.xcme 31 31).wellFormed = true := by decide

theorem witness_EncodeOfDecode : decode 0x001F1F04 = .ok (.xcme 31 31) := by decide

/-- Both sides of the table: a word that decodes, and two words of one row. -/
theorem witness_DecoderFollowsTable : decode 0x00030004 = .ok (.xcme 0 3) ∧
    (0x00030004 : Word) &&& rowMask (.xcme 0 3) = rowMatch (.xcme 0 3) ∧
    (0x00030004 : Word) &&& rowMask (.xcme 1 1) = rowMatch (.xcme 1 1) ∧
    decode 0x06 = .error .unassignedOpcode := by decide

theorem witness_RegisterMapRoundTrip : regAt 0x7FF = some (.xcm 31 31) := by decide

/-- The ends of the reserved ranges, and the writes next to the writable registers. -/
theorem witness_ReservedAndReadOnlyIgnored : [0x00E, 0x00F, 0x030, 0x03F, 0x058, 0x05F, 0x078, 0x07F, 0x090, 0x3FF].all
      (fun n => regAt (BitVec.ofNat 11 n) == none) = true ∧
    (idleWith [.regWrite 0x001 5]).cfg.legal = true ∧ (idleWith [.regWrite 0x001 5]).seq = .idle ∧
    (idleWith [.regWrite 0x006 5]).pending = [.regWrite 0x006 5] ∧
    ¬ (0x002 ≤ (0x006 : BitVec 11).toNat ∧ (0x006 : BitVec 11).toNat ≤ 0x005) := by decide +kernel

theorem witness_RegReadReturnsRegister : State.reset.cfg.legal = true := by decide

theorem witness_RegReadHasNoSideEffect : (idleWith [.regRead 1]).cfg.legal = true ∧
    (idleWith [.regRead 1]).seq = .idle ∧ (idleWith [.regRead 1]).pending = [.regRead 1] := by decide

/-- A legal idle block whose next host operation is `op`, and no other. -/
def readyFor (op : HostOp) : Bool :=
  (idleWith [op]).cfg.legal && decide ((idleWith [op]).seq = .idle) && decide ((idleWith [op]).pending = [op])

/-- Each of the four clauses. -/
theorem witness_RegWriteReplacesHalf : [(0x002 : BitVec 11), 0x003, 0x004, 0x005].all
    (fun a => readyFor (.regWrite a 7)) = true := by decide

/-- The last address below MSG_CAP and MSG_CAP itself; the second clause: a command that answers. -/
theorem witness_MsgWriteWritesOneByte : [(4095 : BitVec 64), 4096].all (fun a => readyFor (.msgWrite a 7)) = true ∧
    ∃ t, exec .mix State.reset = .next t := ⟨by decide, _, rfl⟩

theorem witness_MsgReadReturnsByte : [(4095 : BitVec 64), 4096].all (fun a => readyFor (.msgRead a)) = true := by decide

theorem witness_CanonicalMemoryIsUnique : Memory.wf [(0, 1), (7, 255)] = true := by decide

theorem witness_StepRunsDecodedCommand : (idleWith [.regWrite 0x000 0x001F1F04]).cfg.legal = true ∧
    (idleWith [.regWrite 0x000 0x001F1F04]).seq = .idle ∧
    (idleWith [.regWrite 0x000 0x001F1F04]).pending = [.regWrite 0x000 0x001F1F04] ∧
    decode 0x001F1F04 = .ok (.xcme 31 31) ∧ (Instr.xcme 31 31).wellFormed = true := by decide

theorem witness_IllegalCommandSetsErrcodeOnly : (idleWith [.regWrite 0x000 6]).cfg.legal = true ∧
    (idleWith [.regWrite 0x000 6]).seq = .idle ∧ (idleWith [.regWrite 0x000 6]).pending = [.regWrite 0x000 6] ∧
    ∀ i : Instr, (6 : Word) &&& rowMask i ≠ rowMatch i :=
  ⟨by decide, by decide, by decide, fun i => by cases i <;> simp [rowMask, rowMatch]⟩

theorem witness_IdleBlockChangesNothing : State.reset.cfg.legal = true ∧ State.reset.seq = .idle ∧
    State.reset.pending = [] := by decide

/-- Each of the four ways to be illegal, at its boundary. -/
theorem witness_IllegalConfigurationIsRefused : (Config.withOpen 0 0 0).mixInvOps = 0 ∧
    2 ^ 16 ≤ (Config.withOpen 0 65536 0).mixInvOps ∧ 2 ^ 16 ≤ (Config.withOpen 0 1 65536).mixMixOps ∧
    2 ^ 64 ≤ (Config.withOpen (2 ^ 64) 1 0).msgCap := by decide

theorem witness_BusyStepAdvancesSequencer : ({ State.reset with seq := .check .hash } : State).cfg.legal = true ∧
    ({ State.reset with seq := .check .hash } : State).seq ≠ .idle := by decide

theorem witness_LegalStepCompletes : State.reset.cfg.legal = true := by decide

theorem witness_LegalRunIsSafe : State.reset.cfg.legal = true := by decide

theorem witness_ResetEventResetsRegisters : (idleWith [.reset]).cfg.legal = true ∧ (idleWith [.reset]).seq = .idle ∧
    (idleWith [.reset]).pending = [.reset] := by decide

theorem witness_PowerOnRegistersReadZero : [(0x00B : BitVec 11), 0x00E, 0x05F, 0x090, 0x7FF].all
    (fun a => !decide (a.toNat = 0x00C ∨ a.toNat = 0x00D ∨ (0x060 ≤ a.toNat ∧ a.toNat ≤ 0x08F))) = true := by decide

theorem witness_ClrResetAndPowerOnDifferInOnePoint : State.reset.seq = .idle ∧
    exec .clr State.reset = .next (clearResults State.reset) := ⟨rfl, rfl⟩

theorem witness_hash_answers : ∃ t, exec .hash State.reset = .next t :=
  ⟨_, by simp only [exec, execHash, show lengthError State.reset = none from by decide +kernel]; rfl⟩

/-- Statements about HASH's next state: EmptyMessageKnownAnswer, DigestDependsOnMessageOnly, CommandsAreRepeatable,
CommandsKeepOperandsAndMessage, EveryCommandReportsItsOutcome, ResultsDoNotFeedBack. -/
theorem witness_EmptyMessageKnownAnswer : State.reset.cfg.k = Config.defaultK ∧
    State.reset.cfg.iv = Config.defaultIV ∧ State.reset.cfg.fold2Mode = .inplace ∧ State.reset.mlen = 0 ∧
    ∃ t, exec .hash State.reset = .next t := ⟨rfl, rfl, rfl, rfl, witness_hash_answers⟩

/-- Two states that differ in a byte beyond MLEN, in a register and in BITPOS, and agree on the message. -/
theorem witness_DigestDependsOnMessageOnly :
    ∃ s t s' t' : State, s ≠ t ∧ s.cfg = t.cfg ∧ s.mlen = t.mlen ∧
      (∀ q : Nat, q < s.mlen.toNat → Memory.read s.msg q = Memory.read t.msg q) ∧
      exec .hash s = .next s' ∧ exec .hash t = .next t' := by
  refine ⟨withMessage [(0, 0x61)] 1 0, withMessage [(0, 0x61), (1, 0x62)] 1 9, _, _, by decide +kernel, rfl, rfl, ?_,
    by simp only [exec, execHash, show lengthError (withMessage [(0, 0x61)] 1 0) = none from by decide +kernel]; rfl,
    by simp only [exec, execHash, show lengthError (withMessage [(0, 0x61), (1, 0x62)] 1 9) = none from by
      decide +kernel]; rfl⟩
  intro q hq
  have hq0 : q = 0 := by simpa [withMessage] using hq
  subst hq0
  rfl

theorem witness_CommandsAreRepeatable : exec .mix State.reset ≠ .next State.reset ∧
    ∃ t, exec .mix State.reset = .next t := by
  refine ⟨fun h => ?_, _, rfl⟩
  have := congrArg (viewNext State.mixnum) h
  revert this
  decide +kernel

theorem witness_StreamedHashEqualsBufferedHash : ([0x61, 0x62, 0x63] : List Byte).length < 2 ^ 61 := by decide

/-- Both branches: an accepted length, and a refused one. -/
theorem witness_SequencerRunsHash : (withMessage [(0, 0x61)] 1 0).seq = .idle ∧
    lengthError (withMessage [(0, 0x61)] 1 0) = none ∧ (withMessage [] 4097 0).seq = .idle ∧
    lengthError (withMessage [] 4097 0) = some .msgRange := by decide +kernel

theorem witness_LoadedMessageHashesToItsDigest : ∃ s : State, s.cfg.legal = true ∧ s.seq = .idle ∧
    ([0x61, 0x62, 0x63] : List Byte).length < 2 ^ 61 ∧ ([0x61, 0x62, 0x63] : List Byte).length ≤ s.cfg.msgCap ∧
    s.pending = loadMsg [0x61, 0x62, 0x63] ++ issue .hash :: [] :=
  ⟨idleWith (loadMsg [0x61, 0x62, 0x63] ++ [issue .hash]), by decide +kernel, by decide +kernel, by decide,
    by decide +kernel, rfl⟩

/-- An AVAL that succeeds: "a", the last bit position. -/
theorem witness_aval_succeeds : avalError (withMessage [(0, 0x61)] 1 7) = none ∧
    ∃ t, exec .aval (withMessage [(0, 0x61)] 1 7) = .next t ∧ t.status.errcode = 0 := by
  have h : avalError (withMessage [(0, 0x61)] 1 7) = none := by decide +kernel
  refine ⟨h, succeed (fun st => { st with av := true, dv := true }) (runAvalanche (withMessage [(0, 0x61)] 1 7)), ?_, ?_⟩
  · simp only [exec, execAval, h]
  · simp

theorem witness_AvcntCountsDifferingBits : ∃ s t : State, exec .aval s = .next t ∧ t.status.errcode = 0 :=
  ⟨_, witness_aval_succeeds.2⟩

theorem witness_AvalRefIsHashDigest : ∃ s a b : State, exec .aval s = .next a ∧ a.status.errcode = 0 ∧
    exec .hash s = .next b := by
  obtain ⟨a, ha, he⟩ := witness_aval_succeeds.2
  exact ⟨_, a, _, ha, he,
    by simp only [exec, execHash, show lengthError (withMessage [(0, 0x61)] 1 7) = none from by decide +kernel]; rfl⟩

/-- HASH completes wherever its length checks pass. -/
theorem exec_hash_of_noError {s : State} (h : lengthError s = none) : ∃ b, exec .hash s = .next b :=
  ⟨_, by simp only [exec, execHash, h]; rfl⟩

theorem witness_AvalCopyIsHostFlippedMessage : ∃ s a b : State, exec .aval s = .next a ∧ a.status.errcode = 0 ∧
    exec .hash (msgWrite (BitVec.ofNat 64 (s.bitpos.toNat / 8))
      (Memory.read s.msg (s.bitpos.toNat / 8) ^^^ BitVec.twoPow 8 (s.bitpos.toNat % 8)) s) = .next b := by
  obtain ⟨a, ha, he⟩ := witness_aval_succeeds.2
  obtain ⟨b, hb⟩ := exec_hash_of_noError (s := msgWrite 0 (Memory.read (withMessage [(0, 0x61)] 1 7).msg 0 ^^^
    BitVec.twoPow 8 7) (withMessage [(0, 0x61)] 1 7)) (by decide +kernel)
  exact ⟨_, a, b, ha, he, hb⟩

theorem witness_AvalOnEmptyMessageIsBitposRange : State.reset.mlen = 0 ∧ (withMessage [] 0 5).mlen = 0 := by decide

/-- Every branch of the sequencer's AVAL: success, and each of the three errors. -/
theorem witness_SequencerRunsAval : (withMessage [(0, 0x61)] 1 7).seq = .idle ∧
    avalError (withMessage [(0, 0x61)] 1 7) = none ∧ avalError (withMessage [(0, 0x61)] 1 8) = some .bitposRange ∧
    avalError (withMessage [] 4097 0) = some .msgRange ∧
    avalError (withMessage [] (2 ^ 61) 0) = some .lenOverflow := by decide +kernel

theorem witness_CommandsKeepOperandsAndMessage : ∃ t, exec .mix State.reset = .next t := ⟨_, rfl⟩

theorem witness_EveryCommandReportsItsOutcome : ∃ t, exec (.xcme 31 31) State.reset = .next t := ⟨_, rfl⟩

/-- A failing HASH and a failing AVAL. -/
theorem witness_FailedCommandKeepsResults :
    (∃ t, exec .hash (withMessage [] 4097 0) = .next t ∧ t.status.errcode ≠ 0) ∧
    (∃ t, exec .aval (withMessage [] 12 96) = .next t ∧ t.status.errcode ≠ 0) := by
  refine ⟨⟨raiseError .digest .msgRange (withMessage [] 4097 0), ?_, by decide⟩,
    ⟨raiseError .avalanche .bitposRange (withMessage [] 12 96), ?_, by decide⟩⟩
  · simp only [exec, execHash, show lengthError (withMessage [] 4097 0) = some .msgRange from by decide +kernel]
  · simp only [exec, execAval, show avalError (withMessage [] 12 96) = some .bitposRange from by decide +kernel]

/-- Every command succeeds where AVAL's checks pass. -/
theorem exec_succeeds_of_noError {s : State} (h : avalError s = none) (i : Instr) :
    ∃ t, exec i s = .next t ∧ t.status.errcode = 0 := by
  have hl : lengthError s = none := (lengthError_eq_none s).mpr
    ⟨((avalError_eq_none s).mp h).1, ((avalError_eq_none s).mp h).2.1⟩
  cases i with
  | hash => exact ⟨_, by simp only [exec, execHash, hl]; rfl, by simp⟩
  | aval => exact ⟨_, by simp only [exec, execAval, h]; rfl, by simp⟩
  | xcm => exact ⟨_, rfl, by simp⟩
  | xcme i j => exact ⟨_, rfl, by simp⟩
  | mix => exact ⟨_, rfl, by simp⟩
  | clr => exact ⟨_, rfl, by simp⟩

/-- Two states that differ in result registers alone, for each command, hence for each clause. -/
theorem witness_ResultsDoNotFeedBack (i : Instr) : ∃ s s' t t' : State, s ≠ s' ∧ s.cfg = s'.cfg ∧ s.mlen = s'.mlen ∧
    s.bitpos = s'.bitpos ∧ s.msg = s'.msg ∧ exec i s = .next t ∧ exec i s' = .next t' ∧ t.status.errcode = 0 := by
  obtain ⟨t, ht, he⟩ := exec_succeeds_of_noError (s := withMessage [(0, 0x61)] 1 7) (by decide +kernel) i
  obtain ⟨t', ht', -⟩ := exec_succeeds_of_noError
    (s := { withMessage [(0, 0x61)] 1 7 with xent := 5, mixnum := 9 }) (by decide +kernel) i
  exact ⟨withMessage [(0, 0x61)] 1 7, { withMessage [(0, 0x61)] 1 7 with xent := 5, mixnum := 9 }, t, t',
    by decide +kernel, rfl, rfl, rfl, rfl, ht, ht', he⟩

theorem witness_MatrixValues : ∃ t, exec .xcm State.reset = .next t := ⟨_, rfl⟩

/-- A 1 in each of the two must-be-zero fields. -/
theorem witness_XcmeComputesEntry : (0x00002004 : Word).toNat % 2 ^ 8 = 4 ∧ (0x00002004 : Word) &&& 0xFFE0E0FF ≠ 4 ∧
    (0x00200004 : Word).toNat % 2 ^ 8 = 4 ∧ (0x00200004 : Word) &&& 0xFFE0E0FF ≠ 4 := by decide

theorem witness_MixReportsConfiguredRatio : Config.sample.legal = true ∧ (Config.withOpen 0 65535 65535).legal = true := by
  decide

theorem witness_RotationsAndShiftMatchArithmetic : 1 ≤ (1 : Fin 32).val ∧ 1 ≤ (31 : Fin 32).val := by decide

theorem witness_AddAndMulAreModular : List.Perm [(1 : Word), 2, 3] [3, 1, 2] := by decide

theorem witness_OddFactorsGiveOddProduct : 1 ≤ (1 : Nat) ∧ 1 ≤ (31 : Nat) := by decide

/-- The ends of the bit range, and the last bit into which the two shifts bring a bit of the word. -/
theorem witness_SelectorsAndDiffusionFunctions : [0, 21, 22, 28, 29, 31].all (fun k => decide (k < 32)) = true ∧
    28 + 3 < 32 ∧ ¬ 29 + 3 < 32 ∧ 21 + 10 < 32 ∧ ¬ 22 + 10 < 32 := by decide

theorem witness_PadFillsWholeBlocks : (3 + 1 + 52) % 64 = 56 := by decide

/-- One byte, 0x61: the indices L - 1 = 0, L = 1, 64 NB - 9 = 55, 64 NB - 8 = 56 and 64 NB - 1 = 63, with the values R113
gives there (the bit length is 8). -/
theorem witness_PaddedByteIsByteOfPad : ([0x61] : List Byte).length < 2 ^ 61 ∧ 64 * ((1 + 8) / 64 + 1) = 64 ∧
    [0, 1, 55, 56, 63].map (fun q => (pad [0x61])[q]?) = [some 0x61, some 0x80, some 0x00, some 0x00, some 0x08] ∧
    [0, 1, 55, 56, 63].map (paddedByte (listBytes [0x61]) 1) = [0x61, 0x80, 0x00, 0x00, 0x08] := by decide

theorem witness_PadIsInjective : ([0x61] : List Byte).length < 2 ^ 61 ∧ pad [0x61] = pad [0x61] := ⟨by decide, rfl⟩

theorem witness_PowerOnIsConsistent : Memory.wf [(0, 0x61), (4095, 1)] = true ∧
    Memory.within Config.sample.msgCap [(0, 0x61), (4095, 1)] = true := by decide

/-- A consistent state with a step that changes it: CLR's word issued after reset. -/
theorem witness_StepKeepsConsistent : (idleWith [.regWrite 0x000 0x0F]).Consistent ∧
    ∃ t, step (idleWith [.regWrite 0x000 0x0F]) = .next t := by
  refine ⟨⟨rfl, ⟨by decide, by decide⟩, fun h => absurd h (by decide), .inr ⟨rfl, rfl, rfl, rfl⟩, .inr ⟨rfl, rfl⟩,
    .inr ⟨rfl, rfl, rfl, rfl, rfl⟩, by simp [State.errcodeLegal, idleWith, State.reset, State.powerOn, Status.zero],
    by simp [State.countLegal, idleWith, State.reset, State.powerOn]⟩, ?_⟩
  exact ⟨clearResults (accept [] .done (idleWith [.regWrite 0x000 0x0F])), rfl⟩

end Sys2Proof.Machine
end

section
/-! The statements of 00_scope: the digest is a function of the message (R12), its 32 bytes (R13, R154), and the refusal
of an illegal configuration (R7, R190). -/

namespace Sys2Proof.Machine

/-! ### The padding unit reads the message bytes alone (R12, R113)

Byte functions that agree below the length pad to the same blocks, so every value computed from the blocks agrees. -/

section PaddingReadsMessage

variable {m m' : Nat → Byte} {len : Nat}

theorem paddedByte_congr (hm : ∀ q < len, m q = m' q) (q : Nat) :
    paddedByte m len q = paddedByte m' len q := by
  unfold paddedByte
  split
  · exact hm q ‹_›
  · rfl

theorem block_congr (hm : ∀ q < len, m q = m' q) (b : Nat) :
    block m len b = block m' len b := by
  simp only [block, paddedByte_congr hm]

theorem lastSchedule_congr (hm : ∀ q < len, m q = m' q) :
    lastSchedule m len = lastSchedule m' len := by
  simp only [lastSchedule, block_congr hm]

theorem chain_congr (cfg : Cfg) (hm : ∀ q < len, m q = m' q) (b : Nat) :
    chain cfg m len b = chain cfg m' len b := by
  induction b with
  | zero => rfl
  | succ b ih => simp only [chain, ih, block_congr hm]

theorem finalState_congr (cfg : Cfg) (hm : ∀ q < len, m q = m' q) :
    finalState cfg m len = finalState cfg m' len :=
  chain_congr cfg hm _

theorem digestWords_congr (cfg : Cfg) (hm : ∀ q < len, m q = m' q) :
    digestWords cfg m len = digestWords cfg m' len :=
  congrArg (finalize cfg) (finalState_congr cfg hm)

end PaddingReadsMessage

/-- The length checks read the configuration and MLEN alone (R201, R202). -/
theorem lengthError_congr {s t : State} (hc : s.cfg = t.cfg) (hl : s.mlen = t.mlen) :
    lengthError s = lengthError t := by
  unfold lengthError msgLen
  rw [hc, hl]

theorem errorCode_ne_zero (e : CommandError) : errorCode e ≠ 0 := by
  cases e <;> decide

/-- Settles O27: both states take the same branch of HASH, as the checks read the configuration and MLEN alone; an error
leaves equal flags and a non-zero ERRCODE, and without one the computations agree as the padding units do. -/
theorem digestDependsOnMessageOnly : Obligations.DigestDependsOnMessageOnly := by
  intro s t s' t' hc hl hm hs ht
  have herr := lengthError_congr hc hl
  obtain ⟨e, he, rfl⟩ | ⟨hn, rfl⟩ := exec_hash_cases hs <;>
    obtain ⟨e', he', rfl⟩ | ⟨hn', rfl⟩ := exec_hash_cases ht
  case inl.inl =>
    obtain rfl : e = e' := by simpa [he, he'] using herr
    exact ⟨rfl, rfl, fun h0 => absurd h0 (errorCode_ne_zero e)⟩
  case inl.inr => simp [he, hn'] at herr
  case inr.inl => simp [hn, he'] at herr
  case inr.inr =>
    have hlen : msgLen s = msgLen t := congrArg BitVec.toNat hl
    have hbytes : ∀ q < msgLen s, msgByte s q = msgByte t q := hm
    refine ⟨rfl, rfl, fun _ => ⟨?_, ?_, ?_⟩⟩
    · simp [hc, ← hlen, digestWords_congr t.cfg hbytes]
    · simp [hc, ← hlen, finalState_congr t.cfg hbytes]
    · simp [← hlen, lastSchedule_congr hbytes]

/-! ### The serialization of the digest (R10, R154) -/

@[simp] theorem length_bytesBe (v n : Nat) : (bytesBe v n).length = n := by simp [bytesBe]

theorem getElem?_bytesBe (v : Nat) {n k : Nat} (hk : k < n) : (bytesBe v n)[k]? = some (byteBe v n k) := by
  simp [bytesBe, hk]

@[simp] theorem toNat_byteBe (v n k : Nat) : (byteBe v n k).toNat = v / 2 ^ (8 * (n - 1 - k)) % 256 := by
  simp [byteBe]

/-- Concatenating pieces of one length `n` puts element `k` of piece `i` at index `n * i + k`. -/
theorem getElem?_flatMap_uniform {α β : Type} {g : α → List β} {n : Nat} (hg : ∀ x, (g x).length = n) (l : List α)
    (i : Nat) {k : Nat} (hk : k < n) : (l.flatMap g)[n * i + k]? = l[i]?.bind fun x => (g x)[k]? := by
  induction l generalizing i with
  | nil => simp
  | cons x l ih =>
    cases i with
    | zero => simp [List.getElem?_append_left, hg, hk]
    | succ i =>
      have hidx : n * (i + 1) + k - n = n * i + k := by rw [Nat.mul_succ]; omega
      rw [List.flatMap_cons, List.getElem?_append_right (by rw [hg, Nat.mul_succ]; omega), hg, hidx, ih]
      simp

theorem length_digestBytes (f : Vector Word 8) : (digestBytes f).length = 32 := by
  simp [digestBytes, List.length_flatMap]

/-- Byte `4i + k` of the digest is byte `k`, most significant first, of `F[i]` (R154). -/
theorem getElem?_digestBytes (f : Vector Word 8) (i : Fin 8) {k : Nat} (hk : k < 4) :
    (digestBytes f)[4 * i.val + k]? = some (byteBe f[i].toNat 4 k) := by
  rw [digestBytes, getElem?_flatMap_uniform (fun _ => length_bytesBe _ 4) _ _ hk]
  simp [getElem?_bytesBe _ hk]

/-- Settles O58: the byte at `4i + k` is a byte of `F[i]`, whose value R10 gives. -/
theorem digestIsSerializedBigEndian : Obligations.DigestIsSerializedBigEndian := by
  refine fun f => ⟨length_digestBytes f, fun i k => ?_⟩
  rw [getElem?_digestBytes f i k.isLt, Option.map_some, toNat_byteBe]

/-! ### The refusal of an illegal configuration (R7, R190) -/

/-- A configuration is legal exactly when its three OPEN parameters are in the ranges R7 gives them. -/
theorem legal_iff (c : Cfg) :
    c.legal = true ↔ c.msgCap < 2 ^ 64 ∧ (1 ≤ c.mixInvOps ∧ c.mixInvOps < 2 ^ 16) ∧ c.mixMixOps < 2 ^ 16 := by
  simp [Cfg.legal, Cfg.capInRange, Cfg.invOpsInRange, Cfg.mixOpsInRange, and_assoc]

theorem step_of_not_legal {s : State} (h : ¬ s.cfg.legal = true) : step s = .refused .illegalConfiguration :=
  if_neg h

/-- Settles O17: each of the four values is out of the range that legality asks for, and `step` looks at legality
first. -/
theorem illegalConfigurationIsRefused : Obligations.IllegalConfigurationIsRefused := by
  intro s hbad
  refine step_of_not_legal fun hlegal => ?_
  obtain ⟨hcap, ⟨hinv1, hinv⟩, hmix⟩ := (legal_iff s.cfg).mp hlegal
  omega

end Sys2Proof.Machine
end

section
/-! The statements of 10_state about the step: what a command, a phase transition and a host operation keep, and that
under a legal configuration the block never stops (R26, R57, R204, R209). -/

namespace Sys2Proof.Machine

/-! ### What no command writes -/

/-- The operands, the message, the configuration and the host's side: what no command and no phase transition writes. -/
def State.kept (s : State) : Cfg × BitVec 64 × BitVec 64 × Memory × List HostOp × Response :=
  (s.cfg, s.mlen, s.bitpos, s.msg, s.pending, s.response)

theorem State.kept_eq_iff (s t : State) :
    t.kept = s.kept ↔ t.cfg = s.cfg ∧ t.mlen = s.mlen ∧ t.bitpos = s.bitpos ∧ t.msg = s.msg ∧
      t.pending = s.pending ∧ t.response = s.response := by
  simp [State.kept]

theorem exec_kept {i : Instr} {s t : State} (h : exec i s = .next t) : t.kept = s.kept ∧ t.seq = s.seq := by
  cases i with
  | hash => obtain ⟨e, -, rfl⟩ | ⟨-, rfl⟩ := exec_hash_cases h <;> simp [State.kept]
  | aval => obtain ⟨e, -, rfl⟩ | ⟨-, rfl⟩ := exec_aval_cases h <;> simp [State.kept]
  | xcm => obtain rfl := exec_xcm_cases h; simp [State.kept]
  | xcme i j => obtain rfl := exec_xcme_cases h; simp [State.kept]
  | mix => obtain rfl := exec_mix_cases h; simp [State.kept]
  | clr => obtain rfl := exec_clr_cases h; simp [State.kept]

theorem finishJob_kept (job : Job) (s : State) : (finishJob job s).kept = s.kept := by
  cases job <;> simp [State.kept, finishJob]

theorem seqStep_kept (s : State) : (seqStep s).kept = s.kept := by
  unfold seqStep
  split
  case h_2 => split <;> simp [State.kept]
  case h_7 => dsimp only; split <;> simp [State.kept]
  case h_8 =>
    dsimp only
    split
    · simp [State.kept]
    · rw [finishJob_kept]; simp [State.kept]
  all_goals simp [State.kept]

/-- Settles O38. -/
theorem commandsKeepOperandsAndMessage : Obligations.CommandsKeepOperandsAndMessage := by
  intro i s t h
  obtain ⟨hkept, hseq⟩ := exec_kept h
  obtain ⟨hcfg, hmlen, hbitpos, hmsg, hpending, hresponse⟩ := (State.kept_eq_iff s t).mp hkept
  exact ⟨hmlen, hbitpos, hcfg, hseq, hpending, hresponse, fun a => by rw [hmsg], hmsg⟩

/-! ### What HASH and AVAL answer -/

theorem exec_hash_of_error {s : State} {e : CommandError} (h : lengthError s = some e) :
    exec .hash s = .next (raiseError .digest e s) := by
  simp only [exec, execHash, h]

theorem exec_hash_of_pass {s : State} (h : lengthError s = none) :
    exec .hash s = .next (succeed (fun st => { st with dv := true }) (runPipeline (msgByte s) s)) := by
  simp only [exec, execHash, h]

theorem exec_aval_of_error {s : State} {e : CommandError} (h : avalError s = some e) :
    exec .aval s = .next (raiseError .avalanche e s) := by
  simp only [exec, execAval, h]

theorem exec_aval_of_pass {s : State} (h : avalError s = none) :
    exec .aval s = .next (succeed (fun st => { st with av := true, dv := true }) (runAvalanche s)) := by
  simp only [exec, execAval, h]

/-! ### Every command and every host operation completes -/

theorem exec_completes (i : Instr) (s : State) : ∃ t, exec i s = .next t := by
  cases i with
  | hash =>
    cases h : lengthError s with
    | some e => exact ⟨_, exec_hash_of_error h⟩
    | none => exact ⟨_, exec_hash_of_pass h⟩
  | aval =>
    cases h : avalError s with
    | some e => exact ⟨_, exec_aval_of_error h⟩
    | none => exact ⟨_, exec_aval_of_pass h⟩
  | xcm => exact ⟨_, rfl⟩
  | xcme i j => exact ⟨_, rfl⟩
  | mix => exact ⟨_, rfl⟩
  | clr => exact ⟨_, rfl⟩

theorem runCommand_completes (c : Word) (s : State) : ∃ t, runCommand c s = .next t := by
  unfold runCommand
  split
  · exact exec_completes _ s
  · exact ⟨_, rfl⟩

theorem transact_completes (op : HostOp) (rest : List HostOp) (s : State) : ∃ t, transact op rest s = .next t := by
  cases op with
  | regWrite a v =>
    simp only [transact]
    split
    · exact runCommand_completes v _
    · exact ⟨_, rfl⟩
  | regRead a => exact ⟨_, rfl⟩
  | msgRead addr => exact ⟨_, rfl⟩
  | msgWrite addr b => exact ⟨_, rfl⟩
  | reset => exact ⟨_, rfl⟩

theorem runCommand_cfg {c : Word} {s t : State} (h : runCommand c s = .next t) : t.cfg = s.cfg := by
  obtain ⟨i, -, hi⟩ | ⟨e, -, rfl⟩ := runCommand_cases h
  · exact ((State.kept_eq_iff s t).mp (exec_kept hi).1).1
  · rfl

theorem transact_cfg {op : HostOp} {rest : List HostOp} {s t : State} (h : transact op rest s = .next t) :
    t.cfg = s.cfg := by
  obtain ⟨a, -, rfl⟩ | ⟨v, -, hv⟩ | ⟨a, v, -, -, rfl⟩ | ⟨addr, -, rfl⟩ | ⟨addr, b, -, rfl⟩ | ⟨-, rfl⟩ :=
    transact_cases h
  case inr.inl => simpa using runCommand_cfg hv
  all_goals simp

/-! ### The step -/

theorem step_idle_nil {s : State} (hl : s.cfg.legal = true) (hi : s.seq = .idle) (hp : s.pending = []) :
    step s = .next s := by
  simp [step, hl, hi, hp]

theorem step_busy {s : State} (hl : s.cfg.legal = true) (hs : s.seq ≠ .idle) : step s = .next (seqStep s) := by
  unfold step
  rw [if_pos hl]
  split
  · exact absurd ‹s.seq = .idle› hs
  · exact absurd ‹s.seq = .idle› hs
  · rfl

theorem step_completes {s : State} (hl : s.cfg.legal = true) : ∃ t, step s = .next t := by
  by_cases hs : s.seq = .idle
  · cases hp : s.pending with
    | nil => exact ⟨s, step_idle_nil hl hs hp⟩
    | cons op rest => rw [step_idle_cons hl hs hp]; exact transact_completes op rest s
  · exact ⟨_, step_busy hl hs⟩

theorem step_cfg {s t : State} (h : step s = .next t) : t.cfg = s.cfg := by
  obtain ⟨-, ⟨-, -, rfl⟩ | ⟨op, rest, -, -, ht⟩ | ⟨-, rfl⟩⟩ := step_cases h
  · rfl
  · exact transact_cfg ht
  · exact ((State.kept_eq_iff s _).mp (seqStep_kept s)).1

/-- Settles O16. -/
theorem idleBlockChangesNothing : Obligations.IdleBlockChangesNothing :=
  fun _ hl hi hp => step_idle_nil hl hi hp

/-- Settles O18: of the state, a phase transition writes result registers, STATUS and the sequencer alone. -/
theorem busyStepAdvancesSequencer : Obligations.BusyStepAdvancesSequencer := by
  intro s hl hs
  obtain ⟨hcfg, hmlen, hbitpos, hmsg, hpending, hresponse⟩ := (State.kept_eq_iff s _).mp (seqStep_kept s)
  exact ⟨step_busy hl hs, hpending, hresponse, hmsg, hmlen, hbitpos, hcfg⟩

/-- Settles O19. -/
theorem legalStepCompletes : Obligations.LegalStepCompletes := by
  intro s hl
  obtain ⟨t, ht⟩ := step_completes hl
  exact ⟨t, ht, step_cfg ht⟩

/-! ### Runs -/

theorem core_run_succ (M : Host.Core) {s t : M.State} (h : M.step s = .next t) (n : Nat) :
    M.run (n + 1) s = M.run n t := by
  rw [Host.Core.run, h]

theorem run_succ_of_step {s t : State} (h : step s = .next t) (n : Nat) :
    Sys2Proof.core.run (n + 1) s = Sys2Proof.core.run n t :=
  core_run_succ Sys2Proof.core h n

/-- Settles O20, by induction on the number of steps: the first step from a legal configuration completes and keeps
it, so the rest of the run starts legal again. -/
theorem legalRunIsSafe : Obligations.LegalRunIsSafe := by
  intro n
  induction n with
  | zero => exact fun s _ => ⟨⟨s, rfl⟩, fun t ht => by rw [← Host.Outcome.next.inj ht]⟩
  | succ n ih =>
    intro s hl
    obtain ⟨u, hu, hcfg⟩ := legalStepCompletes s hl
    obtain ⟨⟨t, ht⟩, hkeep⟩ := ih u (hcfg ▸ hl)
    rw [safeFor, run_succ_of_step hu]
    exact ⟨⟨t, ht⟩, fun t ht => (hkeep t ht).trans hcfg⟩

/-! ### No command reads a result -/

/-- AVAL's checks read the configuration, MLEN and BITPOS alone (R201 to R203). -/
theorem avalError_congr {s t : State} (hc : s.cfg = t.cfg) (hl : s.mlen = t.mlen) (hb : s.bitpos = t.bitpos) :
    avalError s = avalError t := by
  unfold avalError msgLen flipPos
  rw [lengthError_congr hc hl, hl, hb]

theorem msgByte_congr {s t : State} (hm : s.msg = t.msg) : msgByte s = msgByte t := by
  unfold msgByte
  rw [hm]

theorem copyByte_congr {s t : State} (hm : s.msg = t.msg) (hb : s.bitpos = t.bitpos) : copyByte s = copyByte t := by
  funext q
  simp only [copyByte, msgByte_congr hm, flipPos, hb]

/-- Settles O41: a command's checks and everything it computes read the configuration, the operands and MSG alone; a
command that fails is excluded by ERRCODE. -/
theorem resultsDoNotFeedBack : Obligations.ResultsDoNotFeedBack := by
  intro i s s' t t' hc hl hb hm ht ht'
  have hlen : msgLen s = msgLen s' := congrArg BitVec.toNat hl
  cases i with
  | hash =>
    have herr := lengthError_congr hc hl
    obtain ⟨e, he, rfl⟩ | ⟨hn, rfl⟩ := exec_hash_cases ht <;>
      obtain ⟨e', he', rfl⟩ | ⟨hn', rfl⟩ := exec_hash_cases ht'
    case inl.inl =>
      obtain rfl : e = e' := by simpa [he, he'] using herr
      exact ⟨rfl, fun h0 => absurd h0 (errorCode_ne_zero e)⟩
    case inl.inr => simp [he, hn'] at herr
    case inr.inl => simp [hn, he'] at herr
    case inr.inr => simp [hc, hlen, msgByte_congr hm]
  | aval =>
    have herr := avalError_congr hc hl hb
    obtain ⟨e, he, rfl⟩ | ⟨hn, rfl⟩ := exec_aval_cases ht <;>
      obtain ⟨e', he', rfl⟩ | ⟨hn', rfl⟩ := exec_aval_cases ht'
    case inl.inl =>
      obtain rfl : e = e' := by simpa [he, he'] using herr
      exact ⟨rfl, fun h0 => absurd h0 (errorCode_ne_zero e)⟩
    case inl.inr => simp [he, hn'] at herr
    case inr.inl => simp [hn, he'] at herr
    case inr.inr => simp [hc, hlen, msgByte_congr hm, copyByte_congr hm hb]
  | xcm =>
    obtain rfl := exec_xcm_cases ht
    obtain rfl := exec_xcm_cases ht'
    simp
  | xcme a b =>
    obtain rfl := exec_xcme_cases ht
    obtain rfl := exec_xcme_cases ht'
    simp
  | mix =>
    obtain rfl := exec_mix_cases ht
    obtain rfl := exec_mix_cases ht'
    simp [hc]
  | clr =>
    obtain rfl := exec_clr_cases ht
    obtain rfl := exec_clr_cases ht'
    simp

end Sys2Proof.Machine
end

section
/-! The invariant of the idle block (R21, R25, R32 to R37, R200): it holds at power-on, and every command and every host
operation keeps it. -/

namespace Sys2Proof.Machine

/-! ### The clauses of the invariant after clearing (R40) -/

theorem digestConsistent_of_not_dv {s : State} (h : s.status.dv = false) : s.digestConsistent :=
  fun hdv => absurd hdv (by simp [h])

/-- A state whose result registers and STATUS hold their reset values is consistent as soon as MSG is. -/
theorem consistent_of_cleared {s : State} (hseq : s.seq = .idle) (hmem : s.memoryCanonical)
    (hstatus : s.status = Status.zero) (havcnt : s.avcnt = 0)
    (hxcm : s.xcm = Vector.replicate 32 (Vector.replicate 32 0)) (hxmin : s.xmin = 0) (hxent : s.xent = 0)
    (hmixnum : s.mixnum = 0) (hmixden : s.mixden = 0) (hscorenum : s.scorenum = 0) : s.Consistent where
  idle := hseq
  memory := hmem
  digest := digestConsistent_of_not_dv (by simp [hstatus])
  matrix := .inr ⟨by simp [hstatus], hxcm, hxmin, by simp [hstatus]⟩
  entry := .inr ⟨by simp [hstatus], hxent⟩
  mix := .inr ⟨by simp [hstatus], hmixnum, hmixden, hscorenum, by simp [hstatus]⟩
  errcode := by simp [State.errcodeLegal, hstatus]
  count := by simp [State.countLegal, havcnt]

/-- Settles O59. -/
theorem powerOnIsConsistent : Obligations.PowerOnIsConsistent :=
  ⟨fun _ _ _ hwf hwithin => consistent_of_cleared rfl ⟨hwf, hwithin⟩ rfl rfl rfl rfl rfl rfl rfl rfl,
    consistent_of_cleared rfl ⟨Memory.wf_nil, Memory.within_nil _⟩ rfl rfl rfl rfl rfl rfl rfl rfl⟩

/-! ### The schedule is closed under the recurrence (R121, R122) -/

/-- The value of `W[16 + i]` depends on the words below it alone. -/
theorem expandedWord_congr {x y : Vector Word 24} (i : Fin 8)
    (h : ∀ (k : Nat) (hk : k < 24), k < 16 + i.val → x[k] = y[k]) : expandedWord x i = expandedWord y i := by
  unfold expandedWord
  rw [h _ _ (by omega), h _ _ (by omega), h _ _ (by omega), h _ _ (by omega), h _ _ (by omega), h _ _ (by omega)]

/-- After the expander has written the words of the indices `is`, rising, each of them holds the value of the
recurrence on the result. -/
theorem expand_closed (is : List (Fin 8)) (hs : is.Pairwise (· < ·)) (w : Vector Word 24) :
    (∀ i ∈ is, (is.foldl expandStep w)[16 + i.val] = expandedWord (is.foldl expandStep w) i) ∧
    ∀ (k : Nat) (hk : k < 24), (∀ i ∈ is, k < 16 + i.val) → (is.foldl expandStep w)[k] = w[k] := by
  induction is generalizing w with
  | nil => simp
  | cons a is ih =>
    obtain ⟨ha, hs⟩ := List.pairwise_cons.mp hs
    obtain ⟨hrec, hkeep⟩ := ih hs (expandStep w a)
    have hlow : ∀ (k : Nat) (hk : k < 24), k < 16 + a.val → (is.foldl expandStep (expandStep w a))[k] = w[k] := by
      intro k hk hlt
      rw [hkeep k hk fun i hi => by have : a.val < i.val := ha i hi; omega, expandStep,
        Vector.getElem_set_ne _ _ (by omega)]
    refine ⟨fun i hi => ?_, fun k hk hlt => hlow k hk (hlt a List.mem_cons_self)⟩
    rcases List.mem_cons.mp hi with rfl | hi
    · rw [List.foldl_cons, expandedWord_congr i hlow, hkeep _ _ fun j hj => by have : i.val < j.val := ha j hj; omega,
        expandStep, Vector.getElem_set_self]
    · exact hrec i hi

theorem schedule_recurrence (b : Vector Byte 64) (i : Fin 8) :
    (schedule b)[16 + i.val] = expandedWord (schedule b) i :=
  (expand_closed (List.finRange 8) (List.pairwise_lt_finRange 8) _).1 i (List.mem_finRange i)

/-! ### Every command keeps the invariant -/

/-- What a hash computation leaves in H, W and F is consistent with itself, whatever DV is. -/
theorem digestConsistent_of_pipeline {s : State} {m : Nat → Byte} {len : Nat} (hh : s.h = finalState s.cfg m len)
    (hw : s.w = lastSchedule m len) (hf : s.f = digestWords s.cfg m len) : s.digestConsistent := by
  intro _
  rw [hh, hw, hf]
  exact ⟨rfl, schedule_recurrence _⟩

theorem errorCode_toNat_le (e : CommandError) : (errorCode e).toNat ≤ 4 := by
  cases e <;> decide

/-- An error clears the flag of its own result, and so keeps every clause. -/
theorem raiseError_consistent (flag : ResultFlag) (e : CommandError) {s : State} (h : s.Consistent) :
    (raiseError flag e s).Consistent where
  idle := h.idle
  memory := h.memory
  digest := by
    cases flag with
    | digest => exact digestConsistent_of_not_dv rfl
    | avalanche => exact h.digest
    | noResult => exact h.digest
  matrix := by cases flag <;> exact h.matrix
  entry := by cases flag <;> exact h.entry
  mix := by cases flag <;> exact h.mix
  errcode := by cases flag <;> exact errorCode_toNat_le e
  count := h.count

theorem toNat_ofNat_of_lt {w n : Nat} (h : n < 2 ^ w) : (BitVec.ofNat w n).toNat = n := by
  rw [BitVec.toNat_ofNat, Nat.mod_eq_of_lt h]

theorem mgt4Of_eq_true (scorenum mixden : Nat) : mgt4Of scorenum mixden = true ↔ 4 * mixden < scorenum := by
  simp [mgt4Of]

/-- Nine bits hold every distance of two digests. -/
theorem toNat_ofNat_digestDistance (x y : Vector Word 8) :
    (BitVec.ofNat 9 (digestDistance x y)).toNat = digestDistance x y := by
  have hle := digestDistance_le x y
  exact toNat_ofNat_of_lt (by omega)

/-- The counts of a legal configuration fit MIXNUM, MIXDEN and SCORENUM (R191). -/
theorem mixConsistent_of_execMix {s t : State} (hl : s.cfg.legal = true) (h : exec .mix s = .next t) :
    t.mixConsistent := by
  obtain ⟨-, ⟨-, hinv⟩, hmix⟩ := (legal_iff s.cfg).mp hl
  obtain rfl := exec_mix_cases h
  have hscore : scoreNumerator s.cfg = 24 * s.cfg.mixMixOps := Nat.mul_comm _ _
  left
  simp only [succeed_status, statusOnSuccess_mv, statusOnSuccess_mgt4, succeed_mixnum, succeed_mixden, succeed_scorenum,
    succeed_cfg, hscore, mgt4Of_eq_true]
  exact ⟨trivial, toNat_ofNat_of_lt hmix, toNat_ofNat_of_lt hinv, toNat_ofNat_of_lt (by omega), trivial⟩

/-- A state that differs in the registers and flags of the two hash computations alone is consistent when these are. -/
theorem consistent_of_hashRegisters {s t : State} (hs : s.Consistent) (hkept : t.kept = s.kept) (hseq : t.seq = s.seq)
    (hmatrix : t.status.xv = s.status.xv ∧ t.status.xge4 = s.status.xge4 ∧ t.xcm = s.xcm ∧ t.xmin = s.xmin)
    (hentry : t.status.ev = s.status.ev ∧ t.xent = s.xent)
    (hmix : t.status.mv = s.status.mv ∧ t.status.mgt4 = s.status.mgt4 ∧ t.mixnum = s.mixnum ∧ t.mixden = s.mixden ∧
      t.scorenum = s.scorenum)
    (hdigest : t.digestConsistent) (herrcode : t.errcodeLegal) (hcount : t.countLegal) : t.Consistent := by
  obtain ⟨hcfg, -, -, hmsg, -, -⟩ := (State.kept_eq_iff s t).mp hkept
  obtain ⟨hxv, hxge4, hxcm, hxmin⟩ := hmatrix
  obtain ⟨hev, hxent⟩ := hentry
  obtain ⟨hmv, hmgt4, hmixnum, hmixden, hscorenum⟩ := hmix
  exact {
    idle := hseq.trans hs.idle
    memory := (memoryCanonical_congr hmsg hcfg).mpr hs.memory
    digest := hdigest
    matrix := (matrixConsistent_congr hxv hxge4 hxcm hxmin).mpr hs.matrix
    entry := (entryConsistent_congr hev hxent).mpr hs.entry
    mix := (mixConsistent_congr hmv hmgt4 hmixnum hmixden hscorenum hcfg).mpr hs.mix
    errcode := herrcode
    count := hcount }

theorem execHash_consistent {s t : State} (hs : s.Consistent) (h : exec .hash s = .next t) : t.Consistent := by
  obtain ⟨hkept, hseq⟩ := exec_kept h
  obtain ⟨e, -, rfl⟩ | ⟨-, rfl⟩ := exec_hash_cases h
  · exact raiseError_consistent _ _ hs
  · refine consistent_of_hashRegisters hs hkept hseq (by simp) (by simp) (by simp) ?_ (by simp [State.errcodeLegal]) ?_
    · exact digestConsistent_of_pipeline (m := msgByte s) (len := msgLen s) (by simp) (by simp) (by simp)
    · simpa [State.countLegal] using hs.count

theorem execAval_consistent {s t : State} (hs : s.Consistent) (h : exec .aval s = .next t) : t.Consistent := by
  obtain ⟨hkept, hseq⟩ := exec_kept h
  obtain ⟨e, -, rfl⟩ | ⟨-, rfl⟩ := exec_aval_cases h
  · exact raiseError_consistent _ _ hs
  · refine consistent_of_hashRegisters hs hkept hseq (by simp) (by simp) (by simp) ?_ (by simp [State.errcodeLegal]) ?_
    · exact digestConsistent_of_pipeline (m := copyByte s) (len := msgLen s) (by simp) (by simp) (by simp)
    · rw [State.countLegal, succeed_avcnt, runAvalanche_avcnt, toNat_ofNat_digestDistance]
      exact digestDistance_le _ _

theorem exec_consistent {i : Instr} {s t : State} (hl : s.cfg.legal = true) (hs : s.Consistent)
    (h : exec i s = .next t) : t.Consistent := by
  cases i with
  | hash => exact execHash_consistent hs h
  | aval => exact execAval_consistent hs h
  | xcm =>
    obtain rfl := exec_xcm_cases h
    exact {
      idle := hs.idle, memory := hs.memory, digest := hs.digest, entry := hs.entry, mix := hs.mix, count := hs.count
      matrix := .inl (by simp)
      errcode := by simp [State.errcodeLegal] }
  | xcme i j =>
    obtain rfl := exec_xcme_cases h
    exact {
      idle := hs.idle, memory := hs.memory, digest := hs.digest, matrix := hs.matrix, mix := hs.mix, count := hs.count
      entry := .inl ⟨rfl, i, j, rfl⟩
      errcode := by simp [State.errcodeLegal] }
  | mix =>
    have hmix := mixConsistent_of_execMix hl h
    obtain rfl := exec_mix_cases h
    exact {
      idle := hs.idle, memory := hs.memory, digest := hs.digest, matrix := hs.matrix, entry := hs.entry,
      count := hs.count
      mix := hmix
      errcode := by simp [State.errcodeLegal] }
  | clr =>
    obtain rfl := exec_clr_cases h
    exact consistent_of_cleared hs.idle hs.memory rfl rfl rfl rfl rfl rfl rfl rfl

/-! ### Every host operation keeps the invariant -/

/-- The invariant speaks of no operand, of nothing on the host's side, and of MSG in one clause. -/
theorem consistent_of_operands {s t : State} (hs : s.Consistent) (hm : t.memoryCanonical)
    (ht : t = { s with
      mlen := t.mlen, bitpos := t.bitpos, msg := t.msg, pending := t.pending, response := t.response }) :
    t.Consistent := by
  rw [ht] at hm ⊢
  exact ⟨hs.idle, hm, hs.digest, hs.matrix, hs.entry, hs.mix, hs.errcode, hs.count⟩

theorem accept_consistent (rest : List HostOp) (r : Response) {s : State} (hs : s.Consistent) :
    (accept rest r s).Consistent :=
  consistent_of_operands hs hs.memory rfl

theorem regWrite_consistent (a : BitVec 11) (v : Word) {s : State} (hs : s.Consistent) :
    (regWrite a v s).Consistent := by
  refine consistent_of_operands hs ((memoryCanonical_congr (by simp) (by simp)).mpr hs.memory) ?_
  obtain ⟨-, h⟩ | ⟨-, h⟩ | ⟨-, h⟩ | ⟨-, h⟩ | h := regWrite_cases a v s <;> rw [h]

theorem msgWrite_consistent (addr : BitVec 64) (b : Byte) {s : State} (hs : s.Consistent) :
    (msgWrite addr b s).Consistent := by
  refine consistent_of_operands hs ?_ ?_
  · rw [State.memoryCanonical, msgWrite_cfg]
    exact msgWrite_keeps_canonical addr b s hs.memory.1 hs.memory.2
  · unfold msgWrite
    split <;> rfl

theorem resetEvent_consistent {s : State} (hm : s.memoryCanonical) : (resetEvent s).Consistent :=
  consistent_of_cleared rfl hm rfl rfl rfl rfl rfl rfl rfl rfl

theorem runCommand_consistent {c : Word} {s t : State} (hl : s.cfg.legal = true) (hs : s.Consistent)
    (h : runCommand c s = .next t) : t.Consistent := by
  obtain ⟨i, -, hi⟩ | ⟨e, -, rfl⟩ := runCommand_cases h
  · exact exec_consistent hl hs hi
  · exact raiseError_consistent _ _ hs

theorem transact_consistent {op : HostOp} {rest : List HostOp} {s t : State} (hl : s.cfg.legal = true)
    (hs : s.Consistent) (h : transact op rest s = .next t) : t.Consistent := by
  obtain ⟨a, -, rfl⟩ | ⟨v, -, hv⟩ | ⟨a, v, -, -, rfl⟩ | ⟨addr, -, rfl⟩ | ⟨addr, b, -, rfl⟩ | ⟨-, rfl⟩ :=
    transact_cases h
  · exact accept_consistent _ _ hs
  · exact runCommand_consistent (s := accept rest .done s) hl (accept_consistent _ _ hs) hv
  · exact regWrite_consistent _ _ (accept_consistent _ _ hs)
  · exact accept_consistent _ _ hs
  · exact msgWrite_consistent _ _ (accept_consistent _ _ hs)
  · exact resetEvent_consistent hs.memory

/-- Settles O60: a consistent state is idle, so a step is none at all or one host operation. -/
theorem stepKeepsConsistent : Obligations.StepKeepsConsistent := by
  intro s t hs h
  obtain ⟨hl, ⟨-, -, rfl⟩ | ⟨op, rest, -, -, ht⟩ | ⟨hbusy, -⟩⟩ := step_cases h
  · exact hs
  · exact transact_consistent hl hs ht
  · exact absurd hs.idle hbusy

end Sys2Proof.Machine
end

section
/-! The register map and the register port (R29, R30, R36, R40, R56). -/

namespace Sys2Proof.Machine

/-! ### The map of R29 -/

theorem regAt_regAddress (r : Reg) : regAt (regAddress r) = some r := by
  cases r with
  | digest i | ref i | h i | w i | k i | iv i =>
    unfold regAt
    generalize hn : (regAddress _).toNat = n
    simp (disch := omega) only [regAddress, toNat_ofNat_of_lt] at hn
    repeat rw [if_neg (by omega)]
    rw [if_pos (by omega), ← hn, Nat.add_sub_cancel_left, Fin.ofNat_val_eq_self]
  | xcm i j =>
    unfold regAt
    generalize hn : (regAddress _).toNat = n
    simp (disch := omega) only [regAddress, toNat_ofNat_of_lt] at hn
    have hrow : (n - 0x400) / 32 = i.val := by omega
    have hcol : (n - 0x400) % 32 = j.val := by omega
    repeat rw [if_neg (by omega)]
    rw [hrow, hcol, Fin.ofNat_val_eq_self, Fin.ofNat_val_eq_self]
  | _ => rfl

theorem val_finOfNat_of_lt {n k : Nat} [NeZero n] (h : k < n) : (Fin.ofNat n k).val = k := Nat.mod_eq_of_lt h

theorem regAddress_of_regAt {a : BitVec 11} {r : Reg} (h : regAt a = some r) : regAddress r = a := by
  have ha := a.isLt
  refine BitVec.eq_of_toNat_eq ?_
  -- one goal for each register below 0x010 and for each window of the map, with the bounds of `a` there
  simp only [regAt] at h
  repeat' split at h
  all_goals cases h
  all_goals
    simp (disch := omega) only [regAddress, BitVec.ofNat_eq_ofNat, toNat_ofNat_of_lt,
      val_finOfNat_of_lt]
    omega

/-- Settles O5. -/
theorem registerMapRoundTrip : Obligations.RegisterMapRoundTrip :=
  ⟨regAt_regAddress, fun _ _ => regAddress_of_regAt⟩

/-! ### What a register reads as -/

@[simp] theorem regRead_regAddress (r : Reg) (s : State) : regRead (regAddress r) s = regValue r s := by
  simp only [regRead, regAt_regAddress]

/-! A word that ends in single bits, read from the end. -/

theorem getLsbD_append_ofBool_zero {n : Nat} (x : BitVec n) (b : Bool) : (x ++ BitVec.ofBool b).getLsbD 0 = b := by
  rw [BitVec.getLsbD_append, if_pos Nat.zero_lt_one, BitVec.getLsbD_ofBool, decide_eq_true rfl, Bool.true_and]

theorem getLsbD_append_bit_succ {n : Nat} (x : BitVec n) (b : BitVec 1) (k : Nat) :
    (x ++ b).getLsbD (k + 1) = x.getLsbD k := by
  simp [BitVec.getLsbD_append]

theorem extractLsb'_append_bit_succ {n : Nat} (x : BitVec n) (b : BitVec 1) (k len : Nat) :
    (x ++ b).extractLsb' (k + 1) len = x.extractLsb' k len :=
  BitVec.extractLsb'_append_eq_of_le (Nat.le_add_left 1 k)

theorem extractLsb'_statusWord (st : Status) : (statusWord st).extractLsb' 8 4 = st.errcode := by
  simp only [statusWord, extractLsb'_append_bit_succ]
  exact BitVec.extractLsb'_append_eq_right

/-- Settles O7. -/
theorem statusReadsItsFields : Obligations.StatusReadsItsFields := by
  intro s
  have hread : regRead 0x001 s = statusWord s.status := regRead_regAddress .status s
  rw [hread, extractLsb'_statusWord]
  simp only [statusWord, getLsbD_append_ofBool_zero, getLsbD_append_bit_succ, and_self]

/-- The two halves of a 64-bit register assemble to its value. -/
theorem toNat_halves (x : BitVec 64) :
    (x.extractLsb' 32 32).toNat * 2 ^ 32 + (x.extractLsb' 0 32).toNat = x.toNat := by
  have hx := x.isLt
  simp only [BitVec.extractLsb'_toNat, Nat.shiftRight_eq_div_pow]
  omega

theorem toNat_halves_ofNat {n : Nat} (h : n < 2 ^ 64) :
    (BitVec.ofNat 32 (n / 2 ^ 32)).toNat * 2 ^ 32 + (BitVec.ofNat 32 n).toNat = n := by
  simp only [BitVec.toNat_ofNat]
  omega

/-- Settles O8: each address is that of a register, which reads as its value; MSG_CAP fits its two halves because the
configuration is legal. -/
theorem regReadReturnsRegister : Obligations.RegReadReturnsRegister := by
  intro s hl
  have hread : ∀ (a : BitVec 11) (r : Reg), a = regAddress r → regRead a s = regValue r s :=
    fun a r ha => ha ▸ regRead_regAddress r s
  have hcap : s.cfg.msgCap < 2 ^ 64 := ((legal_iff s.cfg).mp hl).1
  rw [hread 0x000 .cmd rfl, hread 0x003 .mlenHi rfl, hread 0x002 .mlenLo rfl, hread 0x005 .bitposHi rfl,
    hread 0x004 .bitposLo rfl, hread 0x006 .avcnt rfl, hread 0x007 .xmin rfl, hread 0x008 .xent rfl,
    hread 0x009 .mixnum rfl, hread 0x00A .mixden rfl, hread 0x00B .scorenum rfl, hread 0x00D .capHi rfl,
    hread 0x00C .capLo rfl]
  refine ⟨rfl, toNat_halves s.mlen, toNat_halves s.bitpos, ?_, ?_, ?_, ?_, ?_, ?_, toNat_halves_ofNat hcap,
    fun i => hread _ (.digest i) rfl, fun i => hread _ (.ref i) rfl, fun x => hread _ (.h x) rfl,
    fun i => hread _ (.w i) rfl, fun t => hread _ (.k t) rfl, fun x => hread _ (.iv x) rfl, fun i j => ?_⟩
  case refine_7 =>
    exact (congrArg BitVec.toNat (hread _ (.xcm i j) rfl)).trans (BitVec.toNat_setWidth_of_le (by decide))
  all_goals exact BitVec.toNat_setWidth_of_le (by decide)

/-! ### What a register write leaves -/

theorem toNat_append_words (x y : Word) : (x ++ y : BitVec 64).toNat = x.toNat * 2 ^ 32 + y.toNat := by
  rw [BitVec.toNat_append, ← Nat.shiftLeft_add_eq_or_of_lt y.isLt, Nat.shiftLeft_eq]

theorem toNat_writeLow (x : BitVec 64) (v : Word) :
    (writeLow x v).toNat = x.toNat / 2 ^ 32 * 2 ^ 32 + v.toNat := by
  have hx := x.isLt
  rw [writeLow, toNat_append_words, BitVec.extractLsb'_toNat, Nat.shiftRight_eq_div_pow]
  omega

theorem toNat_writeHigh (x : BitVec 64) (v : Word) :
    (writeHigh x v).toNat = v.toNat * 2 ^ 32 + x.toNat % 2 ^ 32 := by
  rw [writeHigh, toNat_append_words, BitVec.extractLsb'_toNat, Nat.shiftRight_zero]

/-- A `RegWrite` to any register but CMD is performed as the next step of an idle legal block. -/
theorem step_regWrite {s : State} {r : Reg} {v : Word} {rest : List HostOp} (hl : s.cfg.legal = true)
    (hi : s.seq = .idle) (hp : s.pending = .regWrite (regAddress r) v :: rest) (hr : r ≠ .cmd) :
    step s = .next (regWrite (regAddress r) v (accept rest .done s)) := by
  have ha : regAddress r ≠ regAddress .cmd := fun h =>
    hr (Option.some.inj (by rw [← regAt_regAddress r, h, regAt_regAddress]))
  rw [step_idle_cons hl hi hp, transact, if_neg ha]

/-- Settles O10. -/
theorem regWriteReplacesHalf : Obligations.RegWriteReplacesHalf := by
  intro s a v rest hl hi hp
  refine ⟨?_, ?_, ?_, ?_⟩ <;> rintro rfl
  · exact ⟨_, toNat_writeLow s.mlen v, step_regWrite (r := .mlenLo) hl hi hp (by decide)⟩
  · exact ⟨_, toNat_writeHigh s.mlen v, step_regWrite (r := .mlenHi) hl hi hp (by decide)⟩
  · exact ⟨_, toNat_writeLow s.bitpos v, step_regWrite (r := .bitposLo) hl hi hp (by decide)⟩
  · exact ⟨_, toNat_writeHigh s.bitpos v, step_regWrite (r := .bitposHi) hl hi hp (by decide)⟩

/-! ### The registers at power-on (R40) -/

/-- The registers that hold constants: MSG_CAP, K and IV. -/
def Reg.isConstant : Reg → Bool
  | .capLo | .capHi | .k _ | .iv _ => true
  | _ => false

theorem regValue_powerOn (cfg : Cfg) (msg : Memory) (r : Reg) (hr : r.isConstant = false) :
    regValue r (State.powerOn cfg msg) = 0 := by
  cases r with
  | capLo | capHi | k t | iv x => simp [Reg.isConstant] at hr
  | _ => simp [regValue, State.powerOn, Status.zero, statusWord]

/-- A register that holds a constant stands at CAP_LO, CAP_HI or in the windows of K and IV. -/
theorem regAddress_isConstant {r : Reg} (hr : r.isConstant = true) :
    (regAddress r).toNat = 0x00C ∨ (regAddress r).toNat = 0x00D ∨
      (0x060 ≤ (regAddress r).toNat ∧ (regAddress r).toNat ≤ 0x08F) := by
  cases r with
  | capLo => exact .inl rfl
  | capHi => exact .inr (.inl rfl)
  | k i | iv i =>
    simp (disch := omega) only [regAddress, toNat_ofNat_of_lt]
    omega
  | _ => cases hr

/-- Settles O22: an address at which no constant stands is reserved or that of a register that is reset to 0. -/
theorem powerOnRegistersReadZero : Obligations.PowerOnRegistersReadZero := by
  intro cfg msg a ha
  cases hr : regAt a with
  | none => simp only [regRead, hr]
  | some r =>
    obtain rfl := regAddress_of_regAt hr
    rw [regRead_regAddress]
    refine regValue_powerOn cfg msg r (Bool.eq_false_iff.mpr fun hconst => ha (regAddress_isConstant hconst))

end Sys2Proof.Machine
end

section
/-! The canonical form of MSG (R37): what a memory reads as determines it. -/

namespace Sys2Proof.Machine

/-- In the canonical form the entries are exactly the bytes that read other than an unlisted one. -/
theorem Memory.mem_iff_read {m : Memory} (h : Memory.wf m = true) (a : Nat) (b : Byte) :
    (a, b) ∈ m ↔ Memory.read m a = b ∧ b ≠ Memory.unlisted := by
  obtain ⟨hsorted, hlisted⟩ := (Memory.wf_iff m).mp h
  clear h
  induction m with
  | nil => simpa [Memory.read_nil] using fun h : Memory.unlisted = b => h.symm
  | cons c m ih =>
    obtain ⟨a', b'⟩ := c
    obtain ⟨hlt, hsorted⟩ := List.pairwise_cons.mp hsorted
    have hb' : b' ≠ Memory.unlisted := hlisted (a', b') List.mem_cons_self
    rw [List.mem_cons, Memory.read_cons]
    by_cases ha : a' = a
    · have hnot : (a, b) ∉ m := fun hmem => absurd (hlt (a, b) hmem) (by simp [ha])
      simp only [hnot, or_false, ha, if_true, Prod.mk.injEq, true_and]
      exact ⟨fun hb => ⟨hb.symm, hb ▸ hb'⟩, fun hb => hb.1.symm⟩
    · simp only [ha, if_false, Prod.mk.injEq, Ne.symm ha, false_and, false_or]
      exact ih hsorted fun c hc => hlisted c (List.mem_cons_of_mem _ hc)

theorem Memory.nodup_of_rising {m : Memory} (h : m.Pairwise fun x y => x.1 < y.1) : m.Nodup :=
  h.imp fun hlt heq => absurd (heq ▸ hlt) (lt_irrefl _)

/-- Settles O13: the two memories have the same entries, and both list them by rising address. -/
theorem canonicalMemoryIsUnique : Obligations.CanonicalMemoryIsUnique := by
  intro m m' hm hm' hread
  have hmem : ∀ c : Host.Cell, c ∈ m ↔ c ∈ m' := fun ⟨a, b⟩ => by
    rw [Memory.mem_iff_read hm, Memory.mem_iff_read hm', hread]
  have hsorted := ((Memory.wf_iff m).mp hm).1
  have hsorted' := ((Memory.wf_iff m').mp hm').1
  have hperm : m.Perm m' :=
    (List.perm_ext_iff_of_nodup (Memory.nodup_of_rising hsorted) (Memory.nodup_of_rising hsorted')).mpr hmem
  exact hperm.eq_of_pairwise (fun c d _ _ hcd hdc => absurd hcd (lt_asymm hdc)) hsorted hsorted'

end Sys2Proof.Machine
end

section
/-! The sequencer of R25 as a refinement of HASH and AVAL (R38, R160, R171): each phase that counts an index runs a
fold of its step, a block is one compression, and a computation ends in what the function of the command leaves. -/

namespace Sys2Proof.Machine

/-- Two runs of the sequencer, one after the other. -/
theorem seqRun_trans {a b : Nat} {s t u : State} (hst : seqRun a s = t) (htu : seqRun b t = u) :
    seqRun (a + b) s = u := by
  rw [seqRun_add, hst, htu]

/-! ### One phase

A phase that counts an index through `Fin n` runs the fold of what one transition does to its accumulator. -/

/-- `enter i a` is the state with index `i` next and accumulator `a`, and `leave a` the state after the last index. -/
theorem seqRun_counting {α : Type} {n : Nat} (enter : Fin n → α → State) (leave : α → State) (f : α → Fin n → α)
    (hnext : ∀ (i : Fin n) (a : α) (hi : i.val + 1 < n), seqStep (enter i a) = enter ⟨i.val + 1, hi⟩ (f a i))
    (hlast : ∀ (i : Fin n) (a : α), ¬ i.val + 1 < n → seqStep (enter i a) = leave (f a i)) (hn : 0 < n) (a : α) :
    seqRun n (enter ⟨0, hn⟩ a) = leave ((List.finRange n).foldl f a) := by
  have key : ∀ (k : Nat) (i : Fin n) (a : α), i.val + (k + 1) = n →
      seqRun (k + 1) (enter i a) = leave (((List.finRange n).drop i.val).foldl f a) := by
    intro k
    induction k with
    | zero =>
      intro i a hi
      have hdrop : (List.finRange n).drop i.val = [i] := by
        rw [List.drop_eq_getElem_cons (by simp), List.drop_of_length_le (by simp; omega)]
        simp
      rw [hdrop, Nat.zero_add, seqRun_one, hlast i a (by omega)]
      rfl
    | succ k ih =>
      intro i a hi
      have hlt : i.val + 1 < n := by omega
      rw [seqRun, hnext i a hlt, ih _ _ (by simp only; omega), List.drop_eq_getElem_cons (i := i.val) (by simp)]
      simp
  obtain ⟨k, rfl⟩ : ∃ k, n = k + 1 := ⟨n - 1, by omega⟩
  exact key k ⟨0, hn⟩ a (Nat.zero_add _)

theorem seqRun_expand (job : Job) (blk : Nat) (s : State) :
    seqRun 8 { s with seq := .expand job blk 0 } =
      { s with w := (List.finRange 8).foldl expandStep s.w, seq := .round job blk 0 s.h } :=
  seqRun_counting (fun i w => { s with w := w, seq := .expand job blk i })
    (fun w => { s with w := w, seq := .round job blk 0 s.h }) expandStep
    (fun _ _ hi => by simp only [seqStep, hi, dite_true]) (fun _ _ hi => by simp only [seqStep, hi, dite_false])
    (by decide) s.w

theorem seqRun_round (job : Job) (blk : Nat) (v : Vector Word 16) (s : State) :
    seqRun 24 { s with seq := .round job blk 0 v } = { s with seq := .feed job blk (rounds s.cfg s.w v) } :=
  seqRun_counting (fun t v => { s with seq := .round job blk t v }) (fun v => { s with seq := .feed job blk v })
    (blockRound s.cfg s.w)
    (fun _ _ hi => by simp only [seqStep, hi, dite_true]) (fun _ _ hi => by simp only [seqStep, hi, dite_false])
    (by decide) v

/-- Writing every word of a vector in ascending order leaves the vector of the words written. -/
theorem foldl_set_eq_ofFn {α : Type} {n : Nat} (g : Fin n → α) (p : Vector α n) :
    (List.finRange n).foldl (fun p i => p.set i.val (g i)) p = Vector.ofFn g := by
  have key : ∀ (l : List (Fin n)) (p : Vector α n) (k : Fin n),
      (l.foldl (fun p i => p.set i.val (g i)) p)[k] = if k ∈ l then g k else p[k] := by
    intro l
    induction l with
    | nil => simp
    | cons a l ih =>
      intro p k
      rw [List.foldl_cons, ih]
      by_cases hk : k ∈ l
      · simp [hk]
      · by_cases hka : k = a
        · simp [hka]
        · have : a.val ≠ k.val := fun h => hka (Fin.ext h.symm)
          simp [hk, hka, Vector.getElem_set_ne, this]
  refine Vector.ext fun k hk => ?_
  simpa using key (List.finRange n) p ⟨k, hk⟩

theorem seqRun_fold1 (job : Job) (p : Vector Word 8) (s : State) :
    seqRun 8 { s with seq := .fold1 job 0 p } =
      { s with f := pass1 s.h, seq := .fold2 job 0 (pass1 s.h) } := by
  rw [pass1, ← foldl_set_eq_ofFn (foldWord s.h) p]
  exact seqRun_counting (fun i p => { s with seq := .fold1 job i p })
    (fun p => { s with f := p, seq := .fold2 job 0 p }) (fun p i => p.set i.val (foldWord s.h i))
    (fun _ _ hi => by simp only [seqStep, hi, dite_true]) (fun _ _ hi => by simp only [seqStep, hi, dite_false])
    (by decide) p

/-- What follows FOLD2 does not look at the phase it leaves. -/
theorem finishJob_seq (job : Job) (q : Sequencer) (s : State) :
    finishJob job { s with seq := q } = finishJob job s := by
  cases job <;> rfl

theorem seqRun_fold2 (job : Job) (p : Vector Word 8) (s : State) :
    seqRun 8 { s with seq := .fold2 job 0 p } =
      finishJob job { s with f := (List.finRange 8).foldl (pass2Step s.cfg.fold2Mode p) s.f } :=
  seqRun_counting (fun i f => { s with f := f, seq := .fold2 job i p }) (fun f => finishJob job { s with f := f })
    (pass2Step s.cfg.fold2Mode p)
    (fun _ _ hi => by simp only [seqStep, hi, dite_true])
    (fun i f hi => by
      simp only [seqStep, hi, dite_false]
      exact finishJob_seq job (.fold2 job i p) { s with f := pass2Step s.cfg.fold2Mode p f i })
    (by decide) s.f

/-! ### One block and one computation -/

/-- The padding unit of the job reads the `len` bytes `m 0 .. m (len - 1)` in the state (R113, R170). -/
def State.feeds (s : State) (job : Job) (m : Nat → Byte) (len : Nat) : Prop := jobByte job s = m ∧ msgLen s = len

/-- What a padding unit reads is no register a command writes and no part of the sequencer. -/
theorem State.feeds.of_kept {s t : State} {job : Job} {m : Nat → Byte} {len : Nat} (h : s.feeds job m len)
    (hkept : t.kept = s.kept) : t.feeds job m len := by
  obtain ⟨-, hmlen, hbitpos, hmsg, -, -⟩ := (State.kept_eq_iff s t).mp hkept
  obtain ⟨rfl, rfl⟩ := h
  refine ⟨?_, by rw [msgLen, msgLen, hmlen]⟩
  cases job with
  | hash => exact msgByte_congr hmsg
  | avalMessage => exact msgByte_congr hmsg
  | avalCopy => exact copyByte_congr hmsg hbitpos

section Computation

variable {job : Job} {m : Nat → Byte} {len : Nat} {s : State}

theorem seqRun_load (hs : s.feeds job m len) (blk : Nat) :
    seqRun 1 { s with seq := .load job blk } =
      { s with w := loadBlock s.w (block m len blk), seq := .expand job blk 0 } := by
  obtain ⟨hm, hlen⟩ := hs.of_kept (t := { s with seq := .load job blk }) (by simp [State.kept])
  simp only [seqRun_one, seqStep, hm, hlen]

theorem seqRun_feed (hs : s.feeds job m len) (blk : Nat) (v : Vector Word 16) :
    seqRun 1 { s with seq := .feed job blk v } =
      { s with
        h := feedForward s.h v
        seq := if blk + 1 < numBlocks len then .load job (blk + 1) else .fold1 job 0 (Vector.replicate 8 0) } := by
  obtain ⟨-, hlen⟩ := hs.of_kept (t := { s with seq := .feed job blk v }) (by simp [State.kept])
  simp only [seqRun_one, seqStep, hlen]

/-- LOAD to FEED: 34 transitions run the compression of one block (R140). -/
theorem seqRun_block (hs : s.feeds job m len) (blk : Nat) :
    seqRun 34 { s with seq := .load job blk } =
      { s with
        w := schedule (block m len blk)
        h := compress s.cfg s.h (block m len blk)
        seq := if blk + 1 < numBlocks len then .load job (blk + 1) else .fold1 job 0 (Vector.replicate 8 0) } := by
  have hexpand : seqRun 8 { s with w := loadBlock s.w (block m len blk), seq := .expand job blk 0 } =
      { s with w := schedule (block m len blk), seq := .round job blk 0 s.h } := by
    rw [← expand_loadBlock s.w (block m len blk)]
    exact seqRun_expand job blk { s with w := loadBlock s.w (block m len blk) }
  have hround := seqRun_round job blk s.h { s with w := schedule (block m len blk) }
  have hfeed := seqRun_feed (s := { s with w := schedule (block m len blk) })
    (hs.of_kept (by simp [State.kept])) blk (rounds s.cfg (schedule (block m len blk)) s.h)
  have hrun := seqRun_trans (seqRun_trans (seqRun_trans (seqRun_load hs blk) hexpand) hround) hfeed
  exact hrun

/-- The blocks 0 to `b` in ascending order: H is the chaining state after them and W the schedule of block `b`. -/
theorem seqRun_blocks (hs : s.feeds job m len) (b : Nat) (hb : b < numBlocks len) :
    seqRun (34 * (b + 1)) { s with h := s.cfg.iv, seq := .load job 0 } =
      { s with
        h := chain s.cfg m len (b + 1)
        w := schedule (block m len b)
        seq := if b + 1 < numBlocks len then .load job (b + 1) else .fold1 job 0 (Vector.replicate 8 0) } := by
  induction b with
  | zero => exact seqRun_block (s := { s with h := s.cfg.iv }) (hs.of_kept (by simp [State.kept])) 0
  | succ b ih =>
    have hblocks := ih (by omega)
    rw [if_pos hb] at hblocks
    exact seqRun_trans hblocks
      (seqRun_block (s := { s with h := chain s.cfg m len (b + 1), w := schedule (block m len b) })
        (hs.of_kept (by simp [State.kept])) (b + 1))

/-- FOLD1 and FOLD2: 16 transitions run the finalization (R155). -/
theorem seqRun_fold (p : Vector Word 8) :
    seqRun 16 { s with seq := .fold1 job 0 p } = finishJob job { s with f := finalize s.cfg s.h } :=
  seqRun_trans (seqRun_fold1 job p s) (seqRun_fold2 job (pass1 s.h) { s with f := pass1 s.h })

/-- The transitions of one computation after CHECK leave H, W and F as the function of R160 does (R161). -/
theorem seqRun_pipeline (hs : s.feeds job m len) :
    seqRun (34 * numBlocks len + 16) { s with h := s.cfg.iv, seq := .load job 0 } =
      finishJob job (runPipeline m s) := by
  obtain ⟨b, hb⟩ : ∃ b, numBlocks len = b + 1 := ⟨_, rfl⟩
  have hblocks := seqRun_blocks hs b (by omega)
  rw [if_neg (by omega)] at hblocks
  have hpipeline : runPipeline m s =
      { s with
        h := chain s.cfg m len (b + 1)
        w := schedule (block m len b)
        f := finalize s.cfg (chain s.cfg m len (b + 1)) } := by
    rw [runPipeline, digestWords, finalState, lastSchedule, hs.2, hb, Nat.add_sub_cancel]
  rw [hpipeline, hb]
  exact seqRun_trans hblocks
    (seqRun_fold (s := { s with h := chain s.cfg m len (b + 1), w := schedule (block m len b) }) (Vector.replicate 8 0))

end Computation

/-! ### The commands -/

theorem jobError_of_kept {job : Job} {s t : State} (h : t.kept = s.kept) : jobError job t = jobError job s := by
  obtain ⟨hcfg, hmlen, hbitpos, -⟩ := (State.kept_eq_iff s t).mp h
  cases job with
  | hash => exact lengthError_congr hcfg hmlen
  | avalMessage => exact avalError_congr hcfg hmlen hbitpos
  | avalCopy => exact avalError_congr hcfg hmlen hbitpos

theorem seqRun_check_of_error {job : Job} {s : State} {e : CommandError} (h : jobError job s = some e) :
    seqRun 1 { s with seq := .check job } = { raiseError (jobFlag job) e s with seq := .idle } := by
  have herr : jobError job { s with seq := .check job } = some e := (jobError_of_kept (by simp [State.kept])).trans h
  simp only [seqRun_one, seqStep, herr]
  rfl

theorem seqRun_check_of_pass {job : Job} {s : State} (h : jobError job s = none) :
    seqRun 1 { s with seq := .check job } = { s with h := s.cfg.iv, seq := .load job 0 } := by
  have herr : jobError job { s with seq := .check job } = none := (jobError_of_kept (by simp [State.kept])).trans h
  simp only [seqRun_one, seqStep, herr]

theorem setSeq_idle_eq_self {s : State} (h : s.seq = .idle) : { s with seq := .idle } = s := by
  rw [← h]

/-- Settles O30: CHECK answers the error at once, or the one computation follows and ends the command. -/
theorem sequencerRunsHash : Obligations.SequencerRunsHash := by
  intro s hidle
  have hpass : s.mlen.toNat < 2 ^ 61 ∧ s.mlen.toNat ≤ s.cfg.msgCap ↔ lengthError s = none :=
    (lengthError_eq_none s).symm
  simp only [hpass]
  cases herr : lengthError s with
  | some e =>
    rw [exec_hash_of_error herr, if_neg (by simp), seqRun_check_of_error (job := .hash) herr,
      setSeq_idle_eq_self (by simpa using hidle)]
    rfl
  | none =>
    have hrun := seqRun_trans (seqRun_check_of_pass (job := .hash) herr)
      (seqRun_pipeline (job := .hash) (m := msgByte s) (len := msgLen s) ⟨rfl, rfl⟩)
    have hfinish : finishJob .hash (runPipeline (msgByte s) s) =
        succeed (fun st => { st with dv := true }) (runPipeline (msgByte s) s) :=
      setSeq_idle_eq_self (by simpa using hidle)
    rw [exec_hash_of_pass herr, if_pos rfl, ← hfinish]
    exact congrArg Host.Outcome.next hrun.symm

/-- The second computation of AVAL starts with the digest of the first in REF, and its end leaves what `runAvalanche`
does (R171). -/
theorem finishJob_avalCopy {s : State} (hidle : s.seq = .idle) :
    finishJob .avalCopy (runPipeline (copyByte s)
        { runPipeline (msgByte s) s with ref := digestWords s.cfg (msgByte s) (msgLen s) }) =
      succeed (fun st => { st with av := true, dv := true }) (runAvalanche s) := by
  simp only [finishJob, runPipeline, runAvalanche, succeed, msgLen, hidle]

/-- Settles O37: CHECK answers the error at once, or the two computations follow, the first leaving its digest in
REF. -/
theorem sequencerRunsAval : Obligations.SequencerRunsAval := by
  intro s hidle
  have hpass : s.mlen.toNat < 2 ^ 61 ∧ s.mlen.toNat ≤ s.cfg.msgCap ∧ s.bitpos.toNat < 8 * s.mlen.toNat ↔
      avalError s = none := (avalError_eq_none s).symm
  simp only [hpass]
  cases herr : avalError s with
  | some e =>
    rw [exec_aval_of_error herr, if_neg (by simp), seqRun_check_of_error (job := .avalMessage) herr,
      setSeq_idle_eq_self (by simpa using hidle)]
    rfl
  | none =>
    have hfirst := seqRun_trans (seqRun_check_of_pass (job := .avalMessage) herr)
      (seqRun_pipeline (job := .avalMessage) (m := msgByte s) (len := msgLen s) ⟨rfl, rfl⟩)
    have hsecond := seqRun_pipeline (job := .avalCopy) (m := copyByte s) (len := msgLen s)
      (s := { runPipeline (msgByte s) s with ref := digestWords s.cfg (msgByte s) (msgLen s) })
      (State.feeds.of_kept (s := s) ⟨rfl, rfl⟩ (by simp [State.kept]))
    have hrun := seqRun_trans hfirst hsecond
    rw [finishJob_avalCopy hidle] at hrun
    rw [exec_aval_of_pass herr, if_pos rfl, Nat.two_mul, ← Nat.add_assoc]
    exact congrArg Host.Outcome.next hrun.symm

end Sys2Proof.Machine
end

section
/-! AVCNT as a count of digest bits (R32, R172), and the known answer for the empty message (R156). -/

namespace Sys2Proof.Machine

/-! ### The distance of two digests (R171, R172) -/

theorem popcount_xor (x y : Word) :
    popcount (x ^^^ y) = (List.range 32).countP fun k => x.getLsbD k != y.getLsbD k := by
  simp only [popcount, BitVec.getLsbD_xor, Bool.bne_eq_xor]

theorem digestDistance_eq_sum (x y : Vector Word 8) :
    digestDistance x y =
      ((List.finRange 8).map fun i => (List.range 32).countP fun k => x[i].getLsbD k != y[i].getLsbD k).sum := by
  simp only [digestDistance, popcount_xor]

theorem popcount_xor_eq_zero (x y : Word) : popcount (x ^^^ y) = 0 ↔ x = y := by
  rw [popcount_xor, List.countP_eq_zero]
  constructor
  · intro h
    refine BitVec.eq_of_getLsbD_eq fun k hk => ?_
    simpa using h k (List.mem_range.mpr hk)
  · rintro rfl
    simp

theorem digestDistance_eq_zero (x y : Vector Word 8) : digestDistance x y = 0 ↔ x = y := by
  rw [digestDistance, List.sum_eq_zero_iff]
  constructor
  · intro h
    refine Vector.ext fun i hi => (popcount_xor_eq_zero _ _).mp ?_
    exact h _ (List.mem_map.mpr ⟨⟨i, hi⟩, List.mem_finRange _, rfl⟩)
  · rintro rfl n hn
    obtain ⟨i, -, rfl⟩ := List.mem_map.mp hn
    exact (popcount_xor_eq_zero _ _).mpr rfl

/-- Settles O33: an AVAL without an error leaves the distance of REF and F in AVCNT. -/
theorem avcntCountsDifferingBits : Obligations.AvcntCountsDifferingBits := by
  intro s t h h0
  obtain ⟨e, -, rfl⟩ | ⟨-, rfl⟩ := exec_aval_cases h
  · exact absurd h0 (errorCode_ne_zero e)
  · simp only [succeed_avcnt, succeed_ref, succeed_f, runAvalanche_avcnt, runAvalanche_ref, runAvalanche_f,
      ← BitVec.toNat_inj, toNat_ofNat_digestDistance]
    exact ⟨digestDistance_eq_sum _ _, digestDistance_le _ _, digestDistance_eq_zero _ _⟩

/-! ### The empty message (R156) -/

/-- Of the configuration, a digest depends on K, IV and FOLD2_MODE alone. -/
theorem digestWords_congr_cfg {c c' : Cfg} (hk : c.k = c'.k) (hiv : c.iv = c'.iv) (hmode : c.fold2Mode = c'.fold2Mode)
    (m : Nat → Byte) (len : Nat) : digestWords c m len = digestWords c' m len := by
  have hround : blockRound c = blockRound c' := by
    funext w v t
    rw [blockRound, blockRound, hk]
  have hchain : ∀ b, chain c m len b = chain c' m len b := by
    intro b
    induction b with
    | zero => exact hiv
    | succ b ih => simp only [chain, compress, rounds, ih, hround]
  rw [digestWords, digestWords, finalState, finalState, hchain, finalize, finalize, hmode]

theorem digestWords_empty : digestWords Config.sample (fun _ => 0) 0 =
    #v[0x9565fdf9, 0x1892f8fa, 0xc45f0772, 0x3b618632, 0xc210992b, 0xa29f66c0, 0x2d85c95b, 0xefccf88a] := by
  decide +kernel

/-- Settles O26: the length checks pass at MLEN = 0, and the digest depends on no byte of MSG. -/
theorem emptyMessageKnownAnswer : Obligations.EmptyMessageKnownAnswer := by
  intro s t hk hiv hmode hlen h
  have hzero : msgLen s = 0 := by rw [msgLen, hlen]; rfl
  have hpass : lengthError s = none := (lengthError_eq_none s).mpr (by omega)
  rw [exec_hash_of_pass hpass] at h
  calc t.f = digestWords s.cfg (msgByte s) 0 := by rw [← Host.Outcome.next.inj h, succeed_f, runPipeline_f, hzero]
    _ = digestWords s.cfg (fun _ => 0) 0 := digestWords_congr s.cfg fun q hq => absurd hq (Nat.not_lt_zero q)
    _ = digestWords Config.sample (fun _ => 0) 0 := digestWords_congr_cfg hk hiv hmode _ _
    _ = _ := digestWords_empty

end Sys2Proof.Machine
end

section
/-! The two ports on an idle block (R52, R53, R56, R57): a read of either port answers and changes nothing in the block,
a `MsgWrite` writes the one byte it names. -/

namespace Sys2Proof.Machine

/-- Settles O9. -/
theorem regReadHasNoSideEffect : Obligations.RegReadHasNoSideEffect := by
  intro s a rest hl hi hp
  rw [step_idle_cons hl hi hp, transact, accept]

/-- Settles O12. -/
theorem msgReadReturnsByte : Obligations.MsgReadReturnsByte := by
  intro s addr rest hl hi hp
  rw [step_idle_cons hl hi hp, transact, accept, msgRead]

/-- Of the state, `MsgWrite` writes MSG alone (R53). -/
theorem msgWrite_eq_setMsg (addr : BitVec 64) (b : Byte) (s : State) :
    msgWrite addr b s = { s with msg := (msgWrite addr b s).msg } := by
  unfold msgWrite
  split <;> rfl

/-- `MsgWrite` does not look at the host's queue. -/
theorem msgWrite_accept (addr : BitVec 64) (b : Byte) (rest : List HostOp) (r : Response) (s : State) :
    msgWrite addr b (accept rest r s) = accept rest r (msgWrite addr b s) := by
  rw [msgWrite, msgWrite, apply_ite (accept rest r)]
  rfl

theorem msgWrite_of_cap_le {addr : BitVec 64} {s : State} (h : s.cfg.msgCap ≤ addr.toNat) (b : Byte) :
    msgWrite addr b s = s :=
  if_neg (Nat.not_lt.mpr h)

/-- Settles O11: the new memory is that of `msgWrite`, whose bytes `read_msgWrite` gives; a command keeps MSG. -/
theorem msgWriteWritesOneByte : Obligations.MsgWriteWritesOneByte := by
  refine ⟨fun s addr b rest hl hi hp => ⟨(msgWrite addr b s).msg, ?_, fun hlt => ⟨?_, fun x hx => ?_⟩, fun hle => ?_⟩,
    fun i s t h => ?_⟩
  · rw [step_idle_cons hl hi hp, transact, msgWrite_accept]
    exact congrArg (fun t => Host.Outcome.next (accept rest .done t)) (msgWrite_eq_setMsg addr b s)
  · rw [read_msgWrite, if_pos ⟨hlt, rfl⟩]
  · rw [read_msgWrite, if_neg fun h => hx h.2]
  · rw [msgWrite_of_cap_le hle]
  · obtain ⟨-, -, -, hmsg, -, -⟩ := (State.kept_eq_iff s t).mp (exec_kept h).1
    exact ⟨hmsg, fun x => by rw [hmsg]⟩

end Sys2Proof.Machine
end

section
/-! The command encoding (R70 to R76): the fields of a word determine it, so decoding and encoding are inverse to each
other, and the words the decoder accepts are those that match a row of the table. -/

namespace Sys2Proof

/-! ### The fields of a word -/

theorem append_eq_append_iff {v w : Nat} {x x' : BitVec v} {y y' : BitVec w} :
    x ++ y = x' ++ y' ↔ x = x' ∧ y = y' := by
  constructor
  · intro h
    have hx := congrArg (BitVec.extractLsb' w v) h
    have hy := congrArg (BitVec.extractLsb' 0 w) h
    rw [BitVec.extractLsb'_append_eq_left, BitVec.extractLsb'_append_eq_left] at hx
    rw [BitVec.extractLsb'_append_eq_right, BitVec.extractLsb'_append_eq_right] at hy
    exact ⟨hx, hy⟩
  · rintro ⟨rfl, rfl⟩
    rfl

/-- The two fields of format N are all of a word (R71). -/
theorem formatN_fields_append (c : Word) : zeroFieldN c ++ opcodeField c = c := by
  have hc : zeroFieldN c ++ opcodeField c = c.extractLsb' 0 32 :=
    BitVec.extractLsb'_append_extractLsb'_eq_extractLsb' rfl
  rw [hc, BitVec.extractLsb'_eq_self]

/-- The five fields of format X are all of a word (R72). -/
theorem formatX_fields_append (c : Word) :
    zeroFieldXHigh c ++ fieldJ c ++ zeroFieldXLow c ++ fieldI c ++ opcodeField c = c := by
  have hJ : zeroFieldXHigh c ++ fieldJ c = c.extractLsb' 16 16 :=
    BitVec.extractLsb'_append_extractLsb'_eq_extractLsb' rfl
  have hLow : c.extractLsb' 16 16 ++ zeroFieldXLow c = c.extractLsb' 13 19 :=
    BitVec.extractLsb'_append_extractLsb'_eq_extractLsb' rfl
  have hI : c.extractLsb' 13 19 ++ fieldI c = zeroFieldN c :=
    BitVec.extractLsb'_append_extractLsb'_eq_extractLsb' rfl
  rw [hJ, hLow, hI, formatN_fields_append]

theorem eq_encodeFormatN_iff (c : Word) (op : BitVec 8) :
    c = encodeFormatN op ↔ zeroFieldN c = 0 ∧ opcodeField c = op := by
  rw [← append_eq_append_iff, formatN_fields_append]
  rfl

theorem eq_encodeFormatX_iff (c : Word) (op : BitVec 8) (i j : BitVec 5) :
    c = encodeFormatX op i j ↔
      zeroFieldXHigh c = 0 ∧ fieldJ c = j ∧ zeroFieldXLow c = 0 ∧ fieldI c = i ∧ opcodeField c = op := by
  have hfields : c = encodeFormatX op i j ↔
      zeroFieldXHigh c ++ fieldJ c ++ zeroFieldXLow c ++ fieldI c ++ opcodeField c =
        0#11 ++ j ++ 0#3 ++ i ++ op := by
    rw [formatX_fields_append]
    rfl
  simp only [hfields, append_eq_append_iff, and_assoc, BitVec.ofNat_eq_ofNat]

/-! ### The decoder and the encoder (R74, R75) -/

theorem decodeFormatN_eq_ok (c : Word) (i j : Instr) : decodeFormatN c i = .ok j ↔ zeroFieldN c = 0 ∧ i = j := by
  unfold decodeFormatN
  split
  next hzero => simp only [hzero, true_and, Except.ok.injEq]
  next hnot => simp only [hnot, false_and, reduceCtorEq]

theorem decodeFormatX_eq_ok (c : Word) (i : Instr) :
    decodeFormatX c = .ok i ↔ (zeroFieldXLow c = 0 ∧ zeroFieldXHigh c = 0) ∧ .xcme (fieldI c) (fieldJ c) = i := by
  unfold decodeFormatX
  split
  next hzero => simp only [hzero, true_and, and_self, Except.ok.injEq]
  next hnot => simp only [hnot, false_and, reduceCtorEq]

/-- A format N word decodes to the instruction of the row its opcode selects. -/
theorem decode_encodeFormatN {op : BitVec 8} {i : Instr}
    (hrow : ∀ c, opcodeField c = op → decode c = decodeFormatN c i) : decode (encodeFormatN op) = .ok i := by
  obtain ⟨hzero, hop⟩ := (eq_encodeFormatN_iff _ op).mp rfl
  rw [hrow _ hop, decodeFormatN_eq_ok]
  exact ⟨hzero, rfl⟩

theorem decode_encodeFormatX (i j : BitVec 5) : decode (encodeFormatX 0x04 i j) = .ok (.xcme i j) := by
  obtain ⟨hhigh, hj, hlow, hi, hop⟩ := (eq_encodeFormatX_iff _ 0x04 i j).mp rfl
  have hrow : decode (encodeFormatX 0x04 i j) = decodeFormatX (encodeFormatX 0x04 i j) := by
    rw [decode, hop]
    rfl
  rw [hrow, decodeFormatX_eq_ok, hi, hj]
  exact ⟨⟨hlow, hhigh⟩, rfl⟩

theorem decode_encode (i : Instr) : decode (encode i) = .ok i := by
  cases i with
  | xcme i j => exact decode_encodeFormatX i j
  | _ => exact decode_encodeFormatN fun c hop => by rw [decode, hop]; rfl

/-- Settles O1. -/
theorem decodeOfEncode : Obligations.DecodeOfEncode := fun i _ => decode_encode i

theorem encodeFormatN_of_decode {c : Word} {i j : Instr} {n : Nat} (hop : (opcodeField c).toNat = n)
    (h : decodeFormatN c i = .ok j) : i = j ∧ encodeFormatN (BitVec.ofNat 8 n) = c := by
  obtain ⟨hzero, hij⟩ := (decodeFormatN_eq_ok c i j).mp h
  have hopcode : opcodeField c = BitVec.ofNat 8 n := by rw [← hop, BitVec.ofNat_toNat, BitVec.setWidth_eq]
  exact ⟨hij, ((eq_encodeFormatN_iff c _).mpr ⟨hzero, hopcode⟩).symm⟩

theorem encode_of_decode {c : Word} {i : Instr} (h : decode c = .ok i) : encode i = c := by
  unfold decode at h
  split at h
  case h_4 hop =>
    obtain ⟨⟨hlow, hhigh⟩, rfl⟩ := (decodeFormatX_eq_ok c i).mp h
    exact ((eq_encodeFormatX_iff c 0x04 _ _).mpr ⟨hhigh, rfl, hlow, rfl, BitVec.eq_of_toNat_eq hop⟩).symm
  case h_7 => cases h
  all_goals
    obtain ⟨rfl, hword⟩ := encodeFormatN_of_decode ‹(opcodeField c).toNat = _› h
    exact hword

/-- Settles O2: the fields of an accepted word are those of the encoding, and the fields are all of the word. -/
theorem encodeOfDecode : Obligations.EncodeOfDecode := fun _ _ => encode_of_decode

/-! ### The rows of the table (R74) -/

theorem encode_matches_row (i : Instr) : encode i &&& rowMask i = rowMatch i := by
  cases i with
  | hash => exact Laws.EncodesInRow.hash.2
  | aval => exact Laws.EncodesInRow.aval.2
  | xcm => exact Laws.EncodesInRow.xcm.2
  | xcme i j => exact (Laws.EncodesInRow.xcme i j).2
  | mix => exact Laws.EncodesInRow.mix.2
  | clr => exact Laws.EncodesInRow.clr.2

/-- A row whose mask covers every bit has one word. -/
theorem encode_of_matches_full {c : Word} {i : Instr} (hmask : rowMask i = BitVec.allOnes 32)
    (hword : encode i = rowMatch i) (h : c &&& rowMask i = rowMatch i) : encode i = c := by
  rw [hword, ← h, hmask, BitVec.and_allOnes]

/-- The mask of XCME's row covers every bit outside the two indices. -/
theorem encode_xcme_of_matches {c : Word} (h : c &&& 0xFFE0E0FF = 0x00000004) :
    encode (.xcme (fieldI c) (fieldJ c)) = c := by
  -- a field that the mask covers is that field of the match word
  have hfield : ∀ start len : Nat, (0xFFE0E0FF : Word).extractLsb' start len = BitVec.allOnes len →
      c.extractLsb' start len = (0x00000004 : Word).extractLsb' start len := by
    intro start len hmask
    rw [← h, BitVec.extractLsb'_and, hmask, BitVec.and_allOnes]
  exact ((eq_encodeFormatX_iff c 0x04 _ _).mpr
    ⟨hfield 21 11 rfl, rfl, hfield 13 3 rfl, rfl, hfield 0 8 rfl⟩).symm

/-- A word that matches a row is the encoding of an instruction of that row. -/
theorem encode_of_matches {c : Word} {i : Instr} (h : c &&& rowMask i = rowMatch i) :
    ∃ j, encode j = c ∧ rowMatch j = rowMatch i := by
  cases i with
  | xcme i j => exact ⟨_, encode_xcme_of_matches h, rfl⟩
  | _ => exact ⟨_, encode_of_matches_full rfl rfl h, rfl⟩

theorem decode_of_matches {c : Word} {i : Instr} (h : c &&& rowMask i = rowMatch i) :
    ∃ j, decode c = .ok j ∧ rowMatch j = rowMatch i := by
  obtain ⟨j, rfl, hj⟩ := encode_of_matches h
  exact ⟨j, decode_encode j, hj⟩

theorem matches_of_decode {c : Word} {i : Instr} (h : decode c = .ok i) : c &&& rowMask i = rowMatch i := by
  rw [← encode_of_decode h, encode_matches_row]

/-- Settles O3: the word of a row decodes to an instruction of that row, and the decoder gives one answer. -/
theorem decoderFollowsTable : Obligations.DecoderFollowsTable := by
  refine ⟨fun _ _ => matches_of_decode, fun c => ⟨?_, fun hnone => ?_⟩, fun c i j hi hj => ?_⟩
  · rintro ⟨e, he⟩ i hi
    obtain ⟨j, hj, -⟩ := decode_of_matches hi
    cases he.symm.trans hj
  · cases hc : decode c with
    | error e => exact ⟨e, rfl⟩
    | ok i => exact absurd (matches_of_decode hc) (hnone i)
  · obtain ⟨k, hk, hki⟩ := decode_of_matches hi
    obtain ⟨l, hl, hlj⟩ := decode_of_matches hj
    obtain rfl : k = l := Except.ok.inj (hk.symm.trans hl)
    exact hki.symm.trans hlj

/-- Settles O4: the accepted words are encodings, the others fail at their opcode or at a must-be-zero field. -/
theorem decodesWrittenWords : Obligations.DecodesWrittenWords :=
  ⟨decode_encode .hash, decode_encode .aval, decode_encode .xcm, decode_encode (.xcme 0 3), decode_encode (.xcme 31 0),
    decode_encode (.xcme 31 31), decode_encode .mix, decode_encode .clr, rfl, rfl, rfl, rfl⟩

end Sys2Proof
end

section
/-! Reserved and read-only registers (R78), and the CMD write (R70, R76). -/

namespace Sys2Proof.Machine

/-! ### What reads 0 -/

/-- The word addresses R78 reserves. -/
def reservedAddress (n : Nat) : Prop :=
  n = 0x00E ∨ n = 0x00F ∨ (0x030 ≤ n ∧ n ≤ 0x03F) ∨ (0x058 ≤ n ∧ n ≤ 0x05F) ∨ (0x078 ≤ n ∧ n ≤ 0x07F) ∨
    (0x090 ≤ n ∧ n ≤ 0x3FF)

theorem not_reservedAddress_regAddress (r : Reg) : ¬ reservedAddress (regAddress r).toNat := by
  cases r with
  | digest i | ref i | h i | w i | k i | iv i | xcm i j =>
    simp (disch := omega) only [regAddress, toNat_ofNat_of_lt, reservedAddress]
    omega
  | _ => simp [regAddress, reservedAddress]

theorem regAt_of_reserved {a : BitVec 11} (ha : reservedAddress a.toNat) : regAt a = none := by
  cases hr : regAt a with
  | none => rfl
  | some r =>
    obtain rfl := regAddress_of_regAt hr
    exact absurd ha (not_reservedAddress_regAddress r)

theorem regRead_of_reserved {a : BitVec 11} (ha : reservedAddress a.toNat) (s : State) : regRead a s = 0 := by
  simp only [regRead, regAt_of_reserved ha]

theorem getLsbD_append_add {n m : Nat} (x : BitVec n) (y : BitVec m) (k : Nat) :
    (x ++ y).getLsbD (k + m) = x.getLsbD k := by
  rw [BitVec.getLsbD_append, if_neg (by omega), Nat.add_sub_cancel]

/-- Bits 7 and 31:12 of the STATUS word are no fields (R36). -/
theorem getLsbD_statusWord_reserved (st : Status) {k : Nat} (hk : k = 7 ∨ 12 ≤ k) :
    (statusWord st).getLsbD k = false := by
  obtain rfl | hk := hk
  · simp only [statusWord, getLsbD_append_bit_succ]
    exact getLsbD_append_ofBool_zero _ false
  · obtain ⟨j, rfl⟩ := Nat.exists_eq_add_of_le' hk
    simp only [statusWord, getLsbD_append_bit_succ]
    exact (getLsbD_append_add _ st.errcode j).trans BitVec.getLsbD_zero

/-! ### What a write leaves alone -/

/-- A write to an address outside the four halves of MLEN and BITPOS changes no register (R78). -/
theorem regWrite_of_not_half {a : BitVec 11} (ha : ¬ (0x002 ≤ a.toNat ∧ a.toNat ≤ 0x005)) (v : Word) (s : State) :
    regWrite a v s = s := by
  have hne : ∀ r : Reg, 0x002 ≤ (regAddress r).toNat ∧ (regAddress r).toNat ≤ 0x005 → regAt a ≠ some r := by
    rintro r hr h
    obtain rfl := regAddress_of_regAt h
    exact ha hr
  obtain ⟨h, -⟩ | ⟨h, -⟩ | ⟨h, -⟩ | ⟨h, -⟩ | h := regWrite_cases a v s
  · exact absurd h (hne .mlenLo (by decide))
  · exact absurd h (hne .mlenHi (by decide))
  · exact absurd h (hne .bitposLo (by decide))
  · exact absurd h (hne .bitposHi (by decide))
  · exact h

/-- Settles O6: no register stands at a reserved address, and a write that is no command and names no half of MLEN or
BITPOS is answered alone. -/
theorem reservedAndReadOnlyIgnored : Obligations.ReservedAndReadOnlyIgnored := by
  refine ⟨fun a s ha => regRead_of_reserved ha s, fun a v s rest hl hi hp h0 hhalf => ?_, fun s k hk => ?_⟩
  · have hcmd : a ≠ regAddress .cmd := fun h => h0 (congrArg BitVec.toNat h)
    rw [step_idle_cons hl hi hp, transact, if_neg hcmd, regWrite_of_not_half hhalf, accept]
  · have hread : regRead 0x001 s = statusWord s.status := regRead_regAddress .status s
    rw [hread, getLsbD_statusWord_reserved s.status hk]

/-! ### The CMD write -/

theorem runCommand_of_decode {c : Word} {i : Instr} (h : decode c = .ok i) (s : State) : runCommand c s = exec i s := by
  simp only [runCommand, h]

/-- Settles O14. -/
theorem stepRunsDecodedCommand : Obligations.StepRunsDecodedCommand := by
  intro s c rest i hl hi hp hdecode _
  have hcmd : (0x000 : BitVec 11) = regAddress .cmd := rfl
  rw [step_idle_cons hl hi hp, transact, if_pos hcmd, runCommand_of_decode hdecode, accept]

end Sys2Proof.Machine
end

section
/-! LOADMSG followed by HASH (R79, R80, R161): the run of the script on an idle block, one transaction a step. -/

namespace Sys2Proof.Machine

/-- An idle block with configuration `cfg` whose host has issued `ops`. -/
structure State.Ready (cfg : Cfg) (ops : List HostOp) (s : State) : Prop where
  cfg_eq : s.cfg = cfg
  seq_eq : s.seq = .idle
  pending_eq : s.pending = ops

/-- A run in two parts. -/
theorem core_run_add (M : Host.Core) {n : Nat} {s t : M.State} (h : M.run n s = .next t) (k : Nat) :
    M.run (n + k) s = M.run k t := by
  induction n generalizing s with
  | zero => rw [Nat.zero_add, Host.Outcome.next.inj h]
  | succ n ih =>
    cases hs : M.step s with
    | next u =>
      rw [Nat.succ_add, core_run_succ M hs]
      exact ih ((core_run_succ M hs n).symm.trans h)
    | fault r => rw [Host.Core.run, hs] at h; cases h
    | refused r => rw [Host.Core.run, hs] at h; cases h

theorem run_trans {m n : Nat} {s t u : State} (hst : Sys2Proof.core.run m s = .next t)
    (htu : Sys2Proof.core.run n t = .next u) : Sys2Proof.core.run (m + n) s = .next u :=
  (core_run_add Sys2Proof.core hst n).trans htu

theorem run_one {s t : State} (h : step s = .next t) : Sys2Proof.core.run 1 s = .next t :=
  run_succ_of_step h 0

/-- `RegWrite` does not look at the host's queue. -/
theorem regWrite_accept (a : BitVec 11) (v : Word) (rest : List HostOp) (r : Response) (s : State) :
    regWrite a v (accept rest r s) = accept rest r (regWrite a v s) := by
  unfold regWrite
  split <;> rfl

theorem regWrite_mlenLo (v : Word) (s : State) :
    regWrite (regAddress .mlenLo) v s = { s with mlen := writeLow s.mlen v } := rfl

theorem regWrite_mlenHi (v : Word) (s : State) :
    regWrite (regAddress .mlenHi) v s = { s with mlen := writeHigh s.mlen v } := rfl

section Script

variable {cfg : Cfg} {rest : List HostOp} {s : State}

/-! ### One transaction -/

theorem State.Ready.run_msgWrite (hl : cfg.legal = true) {addr : BitVec 64} {b : Byte}
    (hs : s.Ready cfg (.msgWrite addr b :: rest)) :
    ∃ t : State, Sys2Proof.core.run 1 s = .next t ∧ t.Ready cfg rest ∧ t.msg = (msgWrite addr b s).msg := by
  obtain ⟨rfl, hseq, hpending⟩ := hs
  refine ⟨accept rest .done (msgWrite addr b s), run_one ?_, ⟨by simp, by simpa using hseq, rfl⟩, rfl⟩
  rw [step_idle_cons hl hseq hpending, transact, msgWrite_accept]

theorem State.Ready.run_wr (hl : cfg.legal = true) {r : Reg} (hr : r ≠ .cmd) {v : Word}
    (hs : s.Ready cfg (wr r v :: rest)) :
    ∃ t : State, Sys2Proof.core.run 1 s = .next t ∧ t.Ready cfg rest ∧ t.msg = s.msg ∧
      t.mlen = (regWrite (regAddress r) v s).mlen := by
  obtain ⟨rfl, hseq, hpending⟩ := hs
  refine ⟨accept rest .done (regWrite (regAddress r) v s), run_one ?_, ⟨by simp, by simpa using hseq, rfl⟩, by simp,
    rfl⟩
  rw [step_regWrite hl hseq hpending hr, regWrite_accept]

/-- A command's word runs the command. -/
theorem State.Ready.run_issue (hl : cfg.legal = true) {i : Instr} {t : State} (hs : s.Ready cfg (issue i :: rest))
    (h : exec i (accept rest .done s) = .next t) : Sys2Proof.core.run 1 s = .next t := by
  obtain ⟨rfl, hseq, hpending⟩ := hs
  have hcmd : s.pending = .regWrite (regAddress .cmd) (encode i) :: rest := hpending
  refine run_one ?_
  rw [step_idle_cons hl hseq hcmd, transact, if_pos rfl, runCommand_of_decode (decode_encode i), h]

/-! ### The message -/

/-- Storing bytes from address `a` on fills `MSG[a ..]` and keeps the bytes below `a`. -/
theorem State.Ready.run_storeBytes (hl : cfg.legal = true) (bytes : List Byte) (a : Nat)
    (hroom : a + bytes.length ≤ cfg.msgCap) (hs : s.Ready cfg (storeBytes a bytes ++ rest)) :
    ∃ t : State, Sys2Proof.core.run bytes.length s = .next t ∧ t.Ready cfg rest ∧
      (∀ q < bytes.length, msgByte t (a + q) = listBytes bytes q) ∧ ∀ q < a, msgByte t q = msgByte s q := by
  induction bytes generalizing a s with
  | nil => exact ⟨s, rfl, hs, fun q hq => absurd hq (Nat.not_lt_zero q), fun _ _ => rfl⟩
  | cons b bytes ih =>
    have hcap : cfg.msgCap < 2 ^ 64 := ((legal_iff cfg).mp hl).1
    rw [List.length_cons] at hroom
    obtain ⟨u, hrun, hu, hmsg⟩ := State.Ready.run_msgWrite hl hs
    have hread : ∀ q, msgByte u q = if q = a then b else msgByte s q := by
      intro q
      have haddr : (BitVec.ofNat 64 a).toNat = a := toNat_ofNat_of_lt (by omega)
      have hlt : a < s.cfg.msgCap := by rw [hs.cfg_eq]; omega
      simp only [msgByte, hmsg, read_msgWrite, haddr, hlt, true_and]
    obtain ⟨t, hrun', ht, hstored, hkept⟩ := ih (a + 1) (by omega) hu
    refine ⟨t, ?_, ht, fun q hq => ?_, fun q hq => ?_⟩
    · rw [List.length_cons, Nat.add_comm]
      exact run_trans hrun hrun'
    · cases q with
      | zero => rw [Nat.add_zero, hkept a (by omega), hread, if_pos rfl]; rfl
      | succ q =>
        rw [← Nat.add_assoc, Nat.add_right_comm, hstored q (by simpa using hq)]
        rfl
    · rw [hkept q (by omega), hread, if_neg (by omega)]

/-- Writing the two halves of MLEN sets the message length. -/
theorem State.Ready.run_setLength (hl : cfg.legal = true) {n : Nat} (hn : n < 2 ^ 64)
    (hs : s.Ready cfg (wr .mlenLo (BitVec.ofNat 32 n) :: wr .mlenHi (BitVec.ofNat 32 (n / 2 ^ 32)) :: rest)) :
    ∃ t : State, Sys2Proof.core.run 2 s = .next t ∧ t.Ready cfg rest ∧ t.msg = s.msg ∧ msgLen t = n := by
  obtain ⟨u, hrun, hu, hmsg, hlow⟩ := State.Ready.run_wr hl (by decide) hs
  obtain ⟨t, hrun', ht, hmsg', hhigh⟩ := State.Ready.run_wr hl (by decide) hu
  refine ⟨t, run_trans hrun hrun', ht, hmsg'.trans hmsg, ?_⟩
  have hmlen : t.mlen = writeHigh (writeLow s.mlen (BitVec.ofNat 32 n)) (BitVec.ofNat 32 (n / 2 ^ 32)) := by
    rw [hhigh, regWrite_mlenHi, hlow, regWrite_mlenLo]
  have hhalf := (BitVec.ofNat 32 n).isLt
  calc msgLen t = (BitVec.ofNat 32 (n / 2 ^ 32)).toNat * 2 ^ 32 + (BitVec.ofNat 32 n).toNat := by
        rw [msgLen, hmlen, toNat_writeHigh, toNat_writeLow]
        omega
    _ = n := toNat_halves_ofNat hn

/-- LOADMSG leaves the bytes in MSG and their number in MLEN (R80). -/
theorem State.Ready.run_loadMsg (hl : cfg.legal = true) {bytes : List Byte} (hroom : bytes.length ≤ cfg.msgCap)
    (hs : s.Ready cfg (loadMsg bytes ++ rest)) :
    ∃ t : State, Sys2Proof.core.run (bytes.length + 2) s = .next t ∧ t.Ready cfg rest ∧ msgLen t = bytes.length ∧
      ∀ q < bytes.length, msgByte t q = listBytes bytes q := by
  have hcap : cfg.msgCap < 2 ^ 64 := ((legal_iff cfg).mp hl).1
  rw [loadMsg, List.append_assoc] at hs
  obtain ⟨u, hrun, hu, hstored, -⟩ := State.Ready.run_storeBytes hl bytes 0 (by omega) hs
  obtain ⟨t, hrun', ht, hmsg, hlen⟩ := State.Ready.run_setLength hl (by omega) hu
  refine ⟨t, run_trans hrun hrun', ht, hlen, fun q hq => ?_⟩
  rw [msgByte_congr hmsg, ← hstored q hq, Nat.zero_add]

end Script

/-- Settles O31: LOADMSG leaves a block whose length checks pass, and the HASH that follows computes on the loaded
bytes. -/
theorem loadedMessageHashesToItsDigest : Obligations.LoadedMessageHashesToItsDigest := by
  intro s bytes rest hl hi hlen hroom hp
  obtain ⟨u, hrun, hu, hulen, hbytes⟩ := State.Ready.run_loadMsg hl hroom ⟨rfl, hi, hp⟩
  have hpass : lengthError (accept rest .done u) = none :=
    (lengthError_eq_none _).mpr ⟨hulen.trans_lt hlen, hulen.trans_le (hu.cfg_eq ▸ hroom)⟩
  have hhash := hu.run_issue hl (exec_hash_of_pass hpass)
  refine ⟨_, run_trans (m := bytes.length + 2) hrun hhash, ?_, ?_, ?_, ?_, ?_⟩
  · have hwords : digestWords u.cfg (msgByte u) (msgLen u) = digestWords s.cfg (listBytes bytes) bytes.length := by
      rw [hulen, hu.cfg_eq, digestWords_congr s.cfg hbytes]
    rw [succeed_f, runPipeline_f, hashOfList]
    exact congrArg digestBytes hwords
  · rw [succeed_status, statusOnSuccess_dv]
  · rw [succeed_status, statusOnSuccess_errcode]
  · rw [succeed_mlen, runPipeline_mlen, accept_mlen]
    exact hulen
  · rw [succeed_pending, runPipeline_pending, accept_pending]

end Sys2Proof.Machine
end

section
/-! The word primitives (R90 to R101): their bits, and the values they give. -/

namespace Sys2Proof.Machine

/-! ### The bits of the rotations and the shift (R90, R91, R92) -/

theorem getLsbD_rotr (x : Word) (n : Fin 32) {k : Nat} (hk : k < 32) :
    (rotr x n).getLsbD k = x.getLsbD ((k + n.val) % 32) := by
  rw [rotr, BitVec.getLsbD_rotateRight, Nat.mod_eq_of_lt n.isLt]
  by_cases hlow : k < 32 - n.val
  · rw [decide_eq_true hlow, cond_true, Nat.mod_eq_of_lt (by omega), Nat.add_comm]
  · rw [decide_eq_false hlow, cond_false, decide_eq_true hk, Bool.true_and]
    congr 1
    omega

theorem getLsbD_shr (x : Word) (n : Fin 32) (k : Nat) :
    (shr x n).getLsbD k = (decide (k + n.val < 32) && x.getLsbD (k + n.val)) := by
  rw [shr, BitVec.getLsbD_ushiftRight, Nat.add_comm]
  by_cases hin : k + n.val < 32
  · rw [decide_eq_true hin, Bool.true_and]
  · rw [decide_eq_false hin, Bool.false_and, BitVec.getLsbD_of_ge _ _ (by omega)]

theorem rotr_zero (x : Word) : rotr x 0 = x :=
  BitVec.eq_of_getLsbD_eq fun k hk => by rw [getLsbD_rotr x 0 hk, Fin.val_zero, Nat.add_zero, Nat.mod_eq_of_lt hk]

theorem rotl_zero (x : Word) : rotl x 0 = x := by
  simp [rotl, BitVec.rotateLeft_def, BitVec.ushiftRight_eq_zero (x := x) le_rfl]

/-- For an amount other than 0 both sides OR the same two shifts. -/
theorem rotl_eq_rotr (x : Word) (n : Fin 32) : rotl x n = rotr x (Fin.ofNat 32 (32 - n.val)) := by
  rcases Nat.eq_zero_or_pos n.val with hzero | hpos
  · obtain rfl : n = 0 := Fin.ext hzero
    exact (rotl_zero x).trans (rotr_zero x).symm
  · have hlt : 32 - n.val < 32 := by omega
    rw [rotl, rotr, val_finOfNat_of_lt hlt, BitVec.rotateLeft_def, BitVec.rotateRight_def, Nat.mod_eq_of_lt n.isLt,
      Nat.mod_eq_of_lt hlt, Nat.sub_sub_self n.isLt.le, BitVec.or_comm]

theorem rotr_xor (x y : Word) (n : Fin 32) : rotr (x ^^^ y) n = rotr x n ^^^ rotr y n :=
  BitVec.eq_of_getLsbD_eq fun k hk => by simp only [BitVec.getLsbD_xor, getLsbD_rotr _ _ hk]

theorem shr_xor (x y : Word) (n : Fin 32) : shr (x ^^^ y) n = shr x n ^^^ shr y n := BitVec.ushiftRight_xor_distrib ..

/-! ### Their values -/

/-- The bits a left shift keeps below 2^32 are the low `32 - k`. -/
theorem mul_two_pow_mod_word (a : Nat) {k : Nat} (hk : k ≤ 32) : a * 2 ^ k % 2 ^ 32 = a % 2 ^ (32 - k) * 2 ^ k := by
  rw [← Nat.mul_mod_mul_right, ← Nat.pow_add, Nat.sub_add_cancel hk]

/-- The two parts of a right rotation do not overlap: the bits shifted down lie below `2 ^ (32 - n)`, the others at
multiples of it. -/
theorem toNat_rotr (x : Word) (n : Fin 32) :
    (rotr x n).toNat = x.toNat / 2 ^ n.val + x.toNat % 2 ^ n.val * 2 ^ (32 - n.val) := by
  have hdown : x.toNat / 2 ^ n.val < 2 ^ (32 - n.val) := by
    rw [Nat.div_lt_iff_lt_mul (Nat.two_pow_pos _), ← Nat.pow_add, Nat.sub_add_cancel n.isLt.le]
    exact x.isLt
  have hup : x.toNat <<< (32 - n.val) % 2 ^ 32 = 2 ^ (32 - n.val) * (x.toNat % 2 ^ n.val) := by
    rw [Nat.shiftLeft_eq, mul_two_pow_mod_word _ (Nat.sub_le ..), Nat.sub_sub_self n.isLt.le, Nat.mul_comm]
  calc (rotr x n).toNat = x.toNat / 2 ^ n.val ||| 2 ^ (32 - n.val) * (x.toNat % 2 ^ n.val) := by
        rw [rotr, BitVec.toNat_rotateRight, Nat.mod_eq_of_lt n.isLt, Nat.shiftRight_eq_div_pow, hup]
    _ = 2 ^ (32 - n.val) * (x.toNat % 2 ^ n.val) + x.toNat / 2 ^ n.val := by
        rw [Nat.or_comm, Nat.two_pow_add_eq_or_of_lt hdown]
    _ = x.toNat / 2 ^ n.val + x.toNat % 2 ^ n.val * 2 ^ (32 - n.val) := by rw [Nat.add_comm, Nat.mul_comm]

theorem toNat_rotl (x : Word) {n : Fin 32} (hn : 1 ≤ n.val) :
    (rotl x n).toNat = x.toNat * 2 ^ n.val % 2 ^ 32 + x.toNat / 2 ^ (32 - n.val) := by
  have hval : (Fin.ofNat 32 (32 - n.val)).val = 32 - n.val := val_finOfNat_of_lt (by omega)
  rw [rotl_eq_rotr, toNat_rotr, hval, Nat.sub_sub_self n.isLt.le, ← mul_two_pow_mod_word _ n.isLt.le,
    Nat.add_comm]

theorem toNat_shr (x : Word) (n : Fin 32) : (shr x n).toNat = x.toNat / 2 ^ n.val := by
  rw [shr, BitVec.toNat_ushiftRight, Nat.shiftRight_eq_div_pow]

/-- Settles O46: a rotation moves its two parts to places that do not overlap, so their OR is their sum. -/
theorem rotationsAndShiftMatchArithmetic : Obligations.RotationsAndShiftMatchArithmetic := fun x n =>
  ⟨toNat_rotl x, fun _ => toNat_rotr x n, rotl_zero x, rotr_zero x, rotl_eq_rotr x n, toNat_shr x n⟩

/-! ### The sum and the product (R93, R94) -/

theorem toNat_foldl_add (ws : List Word) (a : Word) :
    (ws.foldl (· + ·) a).toNat = (a.toNat + (ws.map BitVec.toNat).sum) % 2 ^ 32 := by
  induction ws generalizing a with
  | nil => exact (Nat.mod_eq_of_lt a.isLt).symm
  | cons w ws ih =>
    rw [List.foldl_cons, ih, BitVec.toNat_add, Nat.mod_add_mod, List.map_cons, List.sum_cons, Nat.add_assoc]

theorem toNat_add32 (ws : List Word) : (add32 ws).toNat = (ws.map BitVec.toNat).sum % 2 ^ 32 := by
  rw [add32, toNat_foldl_add, BitVec.ofNat_eq_ofNat, BitVec.toNat_zero, Nat.zero_add]

theorem toNat_mul32 (a b : Word) : (mul32 a b).toNat = a.toNat * b.toNat % 2 ^ 32 := BitVec.toNat_mul a b

/-- Settles O47: `add32` depends on the sum of the values alone, which a permutation keeps. -/
theorem addAndMulAreModular : Obligations.AddAndMulAreModular := by
  refine ⟨toNat_add32, fun ws ws' hperm => BitVec.eq_of_toNat_eq ?_, toNat_mul32⟩
  rw [toNat_add32, toNat_add32, (hperm.map BitVec.toNat).sum_eq]

/-! ### Odd words (R101) -/

theorem getLsbD_or1 (x : Word) (k : Nat) : (or1 x).getLsbD k = (x.getLsbD k || decide (k = 0)) := by
  rw [or1, BitVec.getLsbD_or, BitVec.ofNat_eq_ofNat, BitVec.getLsbD_one, decide_eq_true (by decide : 0 < 32),
    Bool.true_and]

theorem getLsbD_or1_zero (x : Word) : (or1 x).getLsbD 0 = true := by
  rw [getLsbD_or1, decide_eq_true rfl, Bool.or_true]

theorem or1_odd (x : Word) : Odd (or1 x).toNat := by
  have hbit : (or1 x).getLsbD 0 = true := getLsbD_or1_zero x
  rw [BitVec.getLsbD, Nat.testBit_zero, decide_eq_true_eq] at hbit
  exact Nat.odd_iff.mpr hbit

/-- Reducing mod 2^32 keeps the parity. -/
theorem mul32_odd {a b : Word} (ha : Odd a.toNat) (hb : Odd b.toNat) : (mul32 a b).toNat % 2 = 1 := by
  rw [toNat_mul32, Nat.mod_mod_of_dvd _ (by decide : 2 ∣ 2 ^ 32)]
  exact Nat.odd_iff.mp (ha.mul hb)

/-- Settles O48: a product of odd words is odd before and after the reduction. -/
theorem oddFactorsGiveOddProduct : Obligations.OddFactorsGiveOddProduct := by
  intro x y
  have hodd : (mul32 (or1 x) (or1 y)).toNat % 2 = 1 := mul32_odd (or1_odd x) (or1_odd y)
  refine ⟨getLsbD_or1_zero x, fun k hk => ?_, hodd, fun hzero => ?_⟩
  · rw [getLsbD_or1, decide_eq_false (Nat.one_le_iff_ne_zero.mp hk), Bool.or_false]
  · rw [hzero] at hodd
    exact absurd hodd (by decide)

/-! ### The selectors and the diffusion functions (R95 to R100) -/

theorem getLsbD_ch (e f g : Word) {k : Nat} (hk : k < 32) :
    (ch e f g).getLsbD k = if e.getLsbD k then f.getLsbD k else g.getLsbD k := by
  rw [ch, BitVec.getLsbD_xor, BitVec.getLsbD_and, BitVec.getLsbD_and, BitVec.getLsbD_not, decide_eq_true hk]
  cases e.getLsbD k with
  | false => simp
  | true => simp

/-- The XOR of the pairwise ANDs is the majority of three bits. -/
theorem xor_of_ands_eq_majority : ∀ p q r : Bool,
    ((p && q) ^^ (p && r) ^^ (q && r)) = decide (2 ≤ [p, q, r].countP id) := by decide

theorem getLsbD_maj (a b c : Word) (k : Nat) :
    (maj a b c).getLsbD k = decide (2 ≤ [a, b, c].countP fun x => x.getLsbD k) := by
  have hcount : ([a, b, c].countP fun x => x.getLsbD k) = [a.getLsbD k, b.getLsbD k, c.getLsbD k].countP id :=
    (List.countP_map (p := id) (f := fun x : Word => x.getLsbD k) (l := [a, b, c])).symm
  rw [hcount, ← xor_of_ands_eq_majority]
  simp only [maj, BitVec.getLsbD_xor, BitVec.getLsbD_and]

theorem xor_three_comm (a a' b b' c c' : Word) :
    (a ^^^ a') ^^^ (b ^^^ b') ^^^ (c ^^^ c') = (a ^^^ b ^^^ c) ^^^ (a' ^^^ b' ^^^ c') := by ac_rfl

theorem sigma0_xor (x y : Word) : sigma0 (x ^^^ y) = sigma0 x ^^^ sigma0 y := by
  simp only [sigma0, rotr_xor, xor_three_comm]

theorem sigma1_xor (x y : Word) : sigma1 (x ^^^ y) = sigma1 x ^^^ sigma1 y := by
  simp only [sigma1, rotr_xor, xor_three_comm]

theorem smallSigma0_xor (x y : Word) : smallSigma0 (x ^^^ y) = smallSigma0 x ^^^ smallSigma0 y := by
  simp only [smallSigma0, rotr_xor, shr_xor, xor_three_comm]

theorem smallSigma1_xor (x y : Word) : smallSigma1 (x ^^^ y) = smallSigma1 x ^^^ smallSigma1 y := by
  simp only [smallSigma1, rotr_xor, shr_xor, xor_three_comm]

/-- Settles O49: each function is read off at a bit, and the rotations and the shift are linear. -/
theorem selectorsAndDiffusionFunctions : Obligations.SelectorsAndDiffusionFunctions := by
  refine ⟨fun e f g k => getLsbD_ch e f g, fun a b c k _ => getLsbD_maj a b c k, fun x k hk => ⟨?_, ?_, ?_, ?_⟩,
    fun x y => ⟨sigma0_xor x y, sigma1_xor x y, smallSigma0_xor x y, smallSigma1_xor x y⟩⟩
  · simp only [sigma0, BitVec.getLsbD_xor, getLsbD_rotr _ _ hk]
    rfl
  · simp only [sigma1, BitVec.getLsbD_xor, getLsbD_rotr _ _ hk]
    rfl
  · simp only [smallSigma0, BitVec.getLsbD_xor, getLsbD_rotr _ _ hk, getLsbD_shr]
    rfl
  · simp only [smallSigma1, BitVec.getLsbD_xor, getLsbD_rotr _ _ hk, getLsbD_shr]
    rfl

end Sys2Proof.Machine
end

section
/-! The padding unit (R110 to R115), and the streamed computation against the explicit padded message (R161). -/

namespace Sys2Proof.Machine

/-! ### The counts Z and NB (R111, R112) -/

theorem mod_of_zeroCount (len : Nat) : (len + 1 + zeroCount len) % 64 = 56 := by
  unfold zeroCount
  omega

theorem zeroCount_le_of_mod {len z : Nat} (hz : (len + 1 + z) % 64 = 56) : zeroCount len ≤ z := by
  unfold zeroCount
  omega

/-- The message, the byte 0x80, the Z zeros and the eight bytes of the length field fill the NB blocks. -/
theorem len_add_zeroCount (len : Nat) : len + 1 + zeroCount len + 8 = 64 * numBlocks len := by
  unfold zeroCount numBlocks
  omega

/-- Before the length field the padded message holds the message, 0x80 and Z zeros. -/
theorem lengthField_start (len : Nat) : 64 * numBlocks len - 8 = len + 1 + zeroCount len := by
  rw [← len_add_zeroCount, Nat.add_sub_cancel]

theorem length_beforeLengthField (msg : List Byte) :
    (msg ++ [0x80] ++ List.replicate (zeroCount msg.length) (0 : Byte)).length = 64 * numBlocks msg.length - 8 := by
  rw [lengthField_start, List.length_append, List.length_append, List.length_singleton, List.length_replicate]

theorem length_pad (msg : List Byte) : (pad msg).length = 64 * numBlocks msg.length := by
  rw [pad, List.length_append, length_beforeLengthField, length_bytesBe, lengthField_start, len_add_zeroCount]

/-- Settles O50: Z meets the congruence and is the least that does, and the four parts of `pad(M)` fill NB blocks. -/
theorem padFillsWholeBlocks : Obligations.PadFillsWholeBlocks := by
  refine fun msg => ⟨mod_of_zeroCount _, fun _ => zeroCount_le_of_mod, length_pad msg, ?_, ?_⟩
  · rw [length_pad, Nat.mul_mod_right]
  · rw [length_pad, ← len_add_zeroCount]
    omega

/-! ### The padded-byte function on each range of indices (R113) -/

section PaddedByte

variable (m : Nat → Byte) {len q : Nat}

theorem paddedByte_of_lt (hq : q < len) : paddedByte m len q = m q := if_pos hq

theorem paddedByte_self (len : Nat) : paddedByte m len len = 0x80 := by simp [paddedByte]

theorem paddedByte_of_between (hlow : len < q) (hhigh : q < 64 * numBlocks len - 8) : paddedByte m len q = 0 := by
  rw [paddedByte, if_neg hlow.not_gt, if_neg hlow.ne', if_pos hhigh]

theorem paddedByte_lengthField (len k : Nat) :
    paddedByte m len (64 * numBlocks len - 8 + k) = byteBe (8 * len) 8 k := by
  have hstart := lengthField_start len
  rw [paddedByte, if_neg (by omega), if_neg (by omega), if_neg (by omega), Nat.add_sub_cancel_left]

end PaddedByte

theorem getElem_block (m : Nat → Byte) (len b : Nat) (q : Fin 64) :
    (block m len b)[q] = paddedByte m len (64 * b + q.val) := by simp [block]

theorem getElem?_eq_listBytes {msg : List Byte} {q : Nat} (hq : q < msg.length) : msg[q]? = some (listBytes msg q) := by
  simp [listBytes, hq]

theorem getElem?_pad_of_lt {msg : List Byte} {q : Nat} (hq : q < msg.length) : (pad msg)[q]? = msg[q]? := by
  rw [pad, List.append_assoc, List.append_assoc, List.getElem?_append_left hq]

/-- The padded-byte function gives the bytes of `pad(M)`: in each of the four parts of the list it answers that part's
byte. -/
theorem getElem?_pad {msg : List Byte} {q : Nat} (hq : q < 64 * numBlocks msg.length) :
    (pad msg)[q]? = some (paddedByte (listBytes msg) msg.length q) := by
  have hstart := lengthField_start msg.length
  rcases lt_trichotomy q msg.length with hmsg | rfl | hpast
  · rw [getElem?_pad_of_lt hmsg, paddedByte_of_lt _ hmsg, getElem?_eq_listBytes hmsg]
  · rw [paddedByte_self]
    simp [pad]
  · rcases lt_or_ge q (64 * numBlocks msg.length - 8) with hzeros | hfield
    · have hsnoc : (msg ++ [(0x80 : Byte)]).length = msg.length + 1 := List.length_append
      rw [paddedByte_of_between _ hpast hzeros, pad, List.getElem?_append_left (by rwa [length_beforeLengthField]),
        List.getElem?_append_right (by omega), List.getElem?_replicate_of_lt (by omega)]
    · obtain ⟨k, rfl⟩ := Nat.exists_eq_add_of_le hfield
      have hbody := length_beforeLengthField msg
      rw [paddedByte_lengthField, pad, List.getElem?_append_right (by omega), hbody, Nat.add_sub_cancel_left,
        getElem?_bytesBe _ (by omega)]

/-- Settles O51: the padded-byte function is read off on each range of indices, and `pad(M)` has its bytes. -/
theorem paddedByteIsByteOfPad : Obligations.PaddedByteIsByteOfPad := by
  refine ⟨fun m len _ => ⟨fun q => paddedByte_of_lt m, paddedByte_self m len, fun q => paddedByte_of_between m,
    fun k _ => ?_, getElem_block m len⟩,
    fun msg _ => ⟨length_pad msg, fun q => getElem?_pad_of_lt, fun q => getElem?_pad⟩⟩
  exact (congrArg BitVec.toNat (paddedByte_lengthField m len k)).trans (toNat_byteBe (8 * len) 8 k)

/-! ### The length field determines the length (R10, R115) -/

/-- The bytes of `v` before the last are the bytes of `v / 256`. -/
theorem bytesBe_succ (v n : Nat) : bytesBe v (n + 1) = bytesBe (v / 256) n ++ [BitVec.ofNat 8 v] := by
  have hbyte : ∀ k ∈ List.range n, byteBe v (n + 1) k = byteBe (v / 256) n k := by
    intro k hk
    have hexp : 8 * (n + 1 - 1 - k) = 8 + 8 * (n - 1 - k) := by
      have := List.mem_range.mp hk
      omega
    rw [byteBe, byteBe, hexp, Nat.pow_add, ← Nat.div_div_eq_div_mul]
  rw [bytesBe, bytesBe, List.range_succ, List.map_append, List.map_congr_left hbyte]
  simp [byteBe]

theorem bytesBe_inj {n v v' : Nat} (hv : v < 2 ^ (8 * n)) (hv' : v' < 2 ^ (8 * n)) (h : bytesBe v n = bytesBe v' n) :
    v = v' := by
  induction n generalizing v v' with
  | zero => omega
  | succ n ih =>
    have hpow : 2 ^ (8 * (n + 1)) = 2 ^ (8 * n) * 256 := by rw [Nat.mul_succ, Nat.pow_add]
    rw [bytesBe_succ, bytesBe_succ] at h
    obtain ⟨hinit, hlast⟩ := List.append_inj' h rfl
    have hhigh : v / 256 = v' / 256 := ih (by omega) (by omega) hinit
    have hlow : v % 256 = v' % 256 := by simpa using congrArg BitVec.toNat (List.singleton_inj.mp hlast)
    omega

/-- Settles O52: equal padded messages have equal length fields, so equal lengths; then the same number of bytes follows
both messages. -/
theorem padIsInjective : Obligations.PadIsInjective := by
  intro msg msg' hmsg hmsg' h
  obtain ⟨hbody, hfield⟩ := List.append_inj' h ((length_bytesBe _ 8).trans (length_bytesBe _ 8).symm)
  have hbits : 8 * msg.length = 8 * msg'.length := bytesBe_inj (by omega) (by omega) hfield
  have hlen : msg.length = msg'.length := by omega
  rw [hlen] at hbody
  exact List.append_cancel_right (List.append_cancel_right hbody)

/-! ### The streamed and the buffered computation (R113, R161) -/

theorem listBytes_pad {msg : List Byte} {q : Nat} (hq : q < 64 * numBlocks msg.length) :
    listBytes (pad msg) q = paddedByte (listBytes msg) msg.length q := by
  rw [listBytes, List.getD_eq_getElem?_getD, getElem?_pad hq, Option.getD_some]

theorem listBlock_pad {msg : List Byte} {b : Nat} (hb : b < numBlocks msg.length) :
    listBlock (pad msg) b = block (listBytes msg) msg.length b := by
  refine congrArg Vector.ofFn (funext fun q => listBytes_pad ?_)
  omega

/-- The chaining state of the first `b` blocks of `pad(M)`, taken one after another, is the streamed one. -/
theorem foldl_compress_pad (cfg : Cfg) (msg : List Byte) {b : Nat} (hb : b ≤ numBlocks msg.length) :
    (List.range b).foldl (fun h b => compress cfg h (listBlock (pad msg) b)) cfg.iv =
      chain cfg (listBytes msg) msg.length b := by
  induction b with
  | zero => rfl
  | succ b ih =>
    rw [List.range_succ, List.foldl_append, ih (by omega), List.foldl_cons, List.foldl_nil, listBlock_pad hb, chain]

theorem absorbPadded_pad (cfg : Cfg) (msg : List Byte) :
    absorbPadded cfg (pad msg) = finalState cfg (listBytes msg) msg.length := by
  rw [absorbPadded, length_pad, Nat.mul_div_cancel_left _ (by decide), foldl_compress_pad cfg msg le_rfl, finalState]

/-- Settles O29: block by block both computations compress the same bytes, so they finalize the same chaining state. -/
theorem streamedHashEqualsBufferedHash : Obligations.StreamedHashEqualsBufferedHash :=
  fun cfg msg _ => congrArg (finalize cfg) (absorbPadded_pad cfg msg).symm

end Sys2Proof.Machine
end

section
/-! The block expander (R120, R121): the words of the block and the recurrence, as the words of its schedule. -/

namespace Sys2Proof.Machine

/-! ### The words of the block (R120) -/

theorem toNat_append_eq_add {m n : Nat} (x : BitVec m) (y : BitVec n) :
    (x ++ y).toNat = x.toNat * 2 ^ n + y.toNat := by
  rw [BitVec.toNat_append, ← Nat.shiftLeft_add_eq_or_of_lt y.isLt, Nat.shiftLeft_eq]

theorem toNat_be32 (b0 b1 b2 b3 : Byte) :
    (be32 b0 b1 b2 b3).toNat = b0.toNat * 2 ^ 24 + b1.toNat * 2 ^ 16 + b2.toNat * 2 ^ 8 + b3.toNat := by
  rw [be32, toNat_append_eq_add, toNat_append_eq_add, toNat_append_eq_add]
  omega

theorem loadBlock_getElem_low (w : Vector Word 24) (b : Vector Byte 64) (i : Fin 16) :
    (loadBlock w b)[i.val] = blockWord b i := by
  rw [loadBlock, Vector.getElem_ofFn, dif_pos i.isLt]

/-- The expander writes only above the words of the block, which stay as they were loaded (R120, R122). -/
theorem schedule_getElem_low (b : Vector Byte 64) (i : Fin 16) : (schedule b)[i.val] = blockWord b i := by
  have hkeep := (expand_closed (List.finRange 8) (List.pairwise_lt_finRange 8)
    (loadBlock (Vector.replicate 24 0) b)).2
  rw [schedule, hkeep i.val (by omega) fun _ _ => by omega, loadBlock_getElem_low]

/-! ### The recurrence (R121) -/

theorem add32_singleton (x : Word) : add32 [x] = x := BitVec.zero_add x

theorem add32_cons_cons (x y : Word) (ws : List Word) : add32 (x :: y :: ws) = add32 ((x + y) :: ws) := by
  rw [add32, add32, List.foldl_cons, List.foldl_cons, List.foldl_cons, BitVec.add_assoc]

/-- R121 in words: the linear part is the sum of four words, the rest the product of two words made odd. -/
theorem expandedWord_eq (w : Vector Word 24) (i : Fin 8) :
    expandedWord w i =
      (smallSigma1 w[14 + i.val] + w[9 + i.val] + smallSigma0 w[1 + i.val] + w[i.val])
        + (w[13 + i.val] ||| 1) * (w[6 + i.val] ||| 1) := by
  simp only [expandedWord, add32_cons_cons, add32_singleton, mul32, or1]

/-- Settles O53: the words of the block outlive the expansion, and each expanded word holds the value of the recurrence
on the finished schedule. -/
theorem scheduleFollowsRecurrence : Obligations.ScheduleFollowsRecurrence := by
  refine fun b => ⟨fun i => ?_, fun i => ?_⟩
  · rw [schedule_getElem_low, blockWord, toNat_be32]
  · rw [schedule_recurrence, expandedWord_eq]

end Sys2Proof.Machine
end

section
/-! The round and compression engine (R130 to R140): the words of one round and of the permutation, and the working states
between the rounds of a block. -/

namespace Sys2Proof.Machine

/-! ### One round (R131 to R135) -/

/-- Settles O54: the sums of R131, R133 and R134 are written out as additions; every word reads the old sixteen. -/
theorem roundWritesSixteenWords : Obligations.RoundWritesSixteenWords := by
  intro v k w
  simp only [roundStep, add32_cons_cons, add32_singleton, mul32, lowerMask]

/-! ### The permutation (R136) -/

theorem perm_getElem_even (v : Vector Word 16) (x : Fin 8) : (perm v)[2 * x.val] = v[x.val] := by
  have heven : 2 * x.val % 2 = 0 := Nat.mul_mod_right 2 x.val
  have hhalf : 2 * x.val / 2 = x.val := Nat.mul_div_cancel_left x.val (by decide)
  simp only [perm, Vector.getElem_ofFn, heven, hhalf, if_true]

theorem perm_getElem_odd (v : Vector Word 16) (x : Fin 8) : (perm v)[2 * x.val + 1] = v[x.val + 8] := by
  have hodd : ¬ (2 * x.val + 1) % 2 = 0 := by omega
  have hhalf : (2 * x.val + 1) / 2 = x.val := by omega
  simp only [perm, Vector.getElem_ofFn, hodd, hhalf, if_false]

/-- Settles O55: an even position reads the upper half, an odd one the lower half. -/
theorem permInterleavesHalves : Obligations.PermInterleavesHalves :=
  fun v x => ⟨perm_getElem_even v x, perm_getElem_odd v x⟩

/-! ### The rounds of a block and the feed-forward (R137, R139) -/

theorem feedForward_getElem (h v : Vector Word 16) (x : Fin 16) : (feedForward h v)[x] = h[x] + v[x] := by
  simp only [feedForward, Fin.getElem_fin, Vector.getElem_ofFn, add32_cons_cons, add32_singleton]

/-- `V_t` of R137: the working state after the first `t` rounds, from the working state `v`. -/
def workingState (cfg : Cfg) (w : Vector Word 24) (v : Vector Word 16) (t : Nat) : Vector Word 16 :=
  ((List.finRange 24).take t).foldl (blockRound cfg w) v

section WorkingState

variable (cfg : Cfg) (w : Vector Word 24) (v : Vector Word 16)

theorem workingState_zero : workingState cfg w v 0 = v := rfl

theorem workingState_succ (t : Fin 24) :
    workingState cfg w v (t.val + 1) = blockRound cfg w (workingState cfg w v t.val) t := by
  have htake : (List.finRange 24).take (t.val + 1) = (List.finRange 24).take t.val ++ [t] := by
    rw [List.take_succ_eq_append_getElem (by simp), List.getElem_finRange]
    rfl
  rw [workingState, htake, List.foldl_append]
  rfl

theorem workingState_last : workingState cfg w v 24 = rounds cfg w v := by
  rw [workingState, rounds, List.take_of_length_le (List.length_finRange).le]

end WorkingState

/-- Settles O56: the sequence is the working states of the block, from H on; the last is what the feed-forward adds. -/
theorem compressionIsRoundsAndFeedForward : Obligations.CompressionIsRoundsAndFeedForward := by
  intro cfg h b
  refine ⟨workingState cfg (schedule b) h, workingState_zero _ _ _, fun t => ?_, fun x => ?_⟩
  · exact workingState_succ cfg (schedule b) h t
  · rw [workingState_last, compress, feedForward_getElem]

end Sys2Proof.Machine
end

section
/-! The finalization folder (R150 to R153): the words of pass 1, and the words pass 2 leaves in each mode. -/

namespace Sys2Proof.Machine

/-! ### The words of the two passes (R150, R151) -/

theorem pass1_getElem (h : Vector Word 16) (i : Fin 8) :
    (pass1 h)[i.val] =
      (h[i.val] ^^^ h[i.val + 8]) + (h[i.val] ||| 1) * (rotl h[i.val + 8] 13 ||| 1)
        + rotr (h[i.val] ^^^ h[i.val + 8]) (Fin.ofNat 32 (i.val + 1)) := by
  have hamount : (⟨i.val + 1, by omega⟩ : Fin 32) = Fin.ofNat 32 (i.val + 1) :=
    Fin.ext (Nat.mod_eq_of_lt (by omega)).symm
  simp only [pass1, Vector.getElem_ofFn, foldWord, add32_cons_cons, add32_singleton, mul32, or1, hamount]

theorem diffuseWord_eq (i : Fin 8) (x : Vector Word 8) (y : Word) :
    diffuseWord i x y = y + (x[i + 1] ||| 1) * (x[i + 5] ||| 1) + rotr x[i + 3] 7 := by
  simp only [diffuseWord, add32_cons_cons, add32_singleton, mul32, or1]
  rfl

/-! ### Updates in ascending order (R152) -/

/-- Updates `step` of one word each, at rising indices: the update of word `i` reads the words below `i` as the whole run
leaves them and the others as they were at its start. -/
theorem foldl_set_rising {α : Type} {n : Nat} {step : Vector α n → Fin n → Vector α n} {g : Vector α n → Fin n → α}
    (hstep : ∀ f i, step f i = f.set i.val (g f i)) (is : List (Fin n)) (hs : is.Pairwise (· < ·)) (f : Vector α n) :
    (∀ i ∈ is, ∃ x : Vector α n, (is.foldl step f)[i] = g x i ∧
      ∀ k : Fin n, x[k] = if k < i then (is.foldl step f)[k] else f[k]) ∧
    ∀ k : Fin n, (∀ i ∈ is, k < i) → (is.foldl step f)[k] = f[k] := by
  induction is generalizing f with
  | nil => simp
  | cons a is ih =>
    obtain ⟨ha, hs⟩ := List.pairwise_cons.mp hs
    obtain ⟨hupdate, hkeep⟩ := ih hs (step f a)
    have hother : ∀ k, k ≠ a → (step f a)[k] = f[k] := fun k hk => by
      rw [hstep]
      exact Vector.getElem_set_ne _ _ fun h => hk (Fin.ext h.symm)
    have hlow : ∀ k, k < a → (is.foldl step (step f a))[k] = f[k] := fun k hk =>
      (hkeep k fun i hi => hk.trans (ha i hi)).trans (hother k hk.ne)
    refine ⟨fun i hi => ?_, fun k hk => hlow k (hk a List.mem_cons_self)⟩
    rw [List.foldl_cons]
    rcases List.mem_cons.mp hi with rfl | hi
    · refine ⟨f, ?_, fun k => ?_⟩
      · rw [hkeep i ha, hstep]
        exact Vector.getElem_set_self _
      · split
        · exact (hlow k ‹_›).symm
        · rfl
    · obtain ⟨x, hx, hread⟩ := hupdate i hi
      refine ⟨x, hx, fun k => ?_⟩
      rw [hread k]
      split
      · rfl
      · exact hother k ((ha i hi).trans_le (not_lt.mp ‹_›)).ne'

/-! ### Pass 2 in each mode (R152, R153) -/

theorem pass2_inplace_getElem (p : Vector Word 8) (i : Fin 8) :
    ∃ x : Vector Word 8, (pass2 .inplace p)[i] = diffuseWord i x p[i] ∧
      ∀ k : Fin 8, x[k] = if k < i then (pass2 .inplace p)[k] else p[k] := by
  obtain ⟨x, hx, hread⟩ := (foldl_set_rising (step := pass2Step .inplace p) (g := fun f i => diffuseWord i f f[i])
    (fun _ _ => rfl) (List.finRange 8) (List.pairwise_lt_finRange 8) p).1 i (List.mem_finRange i)
  have hself : x[i] = p[i] := by rw [hread i, if_neg (lt_irrefl i)]
  exact ⟨x, by rw [pass2, hx, hself], hread⟩

theorem pass2_snapshot_getElem (p : Vector Word 8) (i : Fin 8) :
    (pass2 .snapshot p)[i] = diffuseWord i p p[i] := by
  have hfold : pass2 .snapshot p = Vector.ofFn fun i => diffuseWord i p p[i] := foldl_set_eq_ofFn _ p
  rw [hfold, Fin.getElem_fin, Vector.getElem_ofFn]

/-- Settles O57: under INPLACE the eight updates rise, so an operand below `i` is a finished word of F and any other one
still a word of P. -/
theorem finalizationFollowsItsMode : Obligations.FinalizationFollowsItsMode := by
  refine fun cfg h => ⟨pass1_getElem h, fun i => ?_⟩
  rw [finalize]
  cases cfg.fold2Mode with
  | inplace =>
    obtain ⟨x, hx, hread⟩ := pass2_inplace_getElem (pass1 h) i
    rw [hx, diffuseWord_eq, hread, hread, hread]
  | snapshot => rw [pass2_snapshot_getElem, diffuseWord_eq]

end Sys2Proof.Machine
end

section
/-! CLR (R162), HASH whole (R160), and the repetition of a command (R161, R173, R193). -/

namespace Sys2Proof.Machine

/-- A word written out decodes to the instruction it is the encoding of (R74). -/
theorem decode_of_encode_eq {c : Word} {i : Instr} (h : encode i = c) : decode c = .ok i := by
  rw [← h, decode_encode]

/-! ### CLR (R162) -/

theorem exec_clr (s : State) : exec .clr s = .next (clearResults s) := rfl

/-- Settles O23. -/
theorem clrClearsResults : Obligations.ClrClearsResults :=
  ⟨decode_of_encode_eq rfl, exec_clr⟩

/-! ### HASH (R160) -/

theorem lastSchedule_eq (m : Nat → Byte) (len : Nat) :
    lastSchedule m len = schedule (block m len ((len + 8) / 64)) := by
  rw [lastSchedule, numBlocks, Nat.add_sub_cancel]

/-- Settles O25: the three outcomes of the length checks are the three branches, and in each HASH answers what its rule
for that outcome gives. -/
theorem hashComputesDigest : Obligations.HashComputesDigest := by
  refine ⟨decode_of_encode_eq rfl, fun cfg m len => ⟨rfl, fun b => rfl⟩, fun s => ?_⟩
  rw [← show msgLen s = s.mlen.toNat from rfl]
  obtain ⟨hlen, herr⟩ | ⟨hlen, hcap, herr⟩ | ⟨hlen, hcap, herr⟩ := lengthError_cases s
  · rw [exec_hash_of_error herr, if_pos hlen]
    rfl
  · rw [exec_hash_of_error herr, if_neg (Nat.not_le.mpr hlen), if_pos hcap]
    rfl
  · rw [exec_hash_of_pass herr, if_neg (Nat.not_le.mpr hlen), if_neg (Nat.not_lt.mpr hcap), ← lastSchedule_eq]
    rfl

/-! ### A command issued again (R161, R173, R193)

A command keeps what its checks and its computation read, so the second one takes the branch of the first and writes the
values that are there already: each of the state operations it is made of does nothing the second time. -/

theorem raiseError_raiseError (flag : ResultFlag) (e : CommandError) (s : State) :
    raiseError flag e (raiseError flag e s) = raiseError flag e s := by
  cases flag <;> rfl

theorem succeed_succeed {upd : Status → Status}
    (h : ∀ st, statusOnSuccess (upd (statusOnSuccess (upd st))) = statusOnSuccess (upd st)) (s : State) :
    succeed upd (succeed upd s) = succeed upd s := by
  simp only [succeed, h]

theorem runPipeline_succeed (m : Nat → Byte) (upd : Status → Status) (s : State) :
    runPipeline m (succeed upd s) = succeed upd (runPipeline m s) := by
  simp only [runPipeline, succeed, msgLen]

theorem runPipeline_runPipeline (m : Nat → Byte) (s : State) : runPipeline m (runPipeline m s) = runPipeline m s := by
  simp only [runPipeline, msgLen]

theorem runAvalanche_succeed (upd : Status → Status) (s : State) :
    runAvalanche (succeed upd s) = succeed upd (runAvalanche s) := by
  have hbytes : msgByte (succeed upd s) = msgByte s := msgByte_congr (succeed_msg upd s)
  have hcopy : copyByte (succeed upd s) = copyByte s :=
    copyByte_congr (succeed_msg upd s) (succeed_bitpos upd s)
  rw [runAvalanche, hbytes, hcopy]
  simp only [runAvalanche, succeed, msgLen]

theorem runAvalanche_runAvalanche (s : State) : runAvalanche (runAvalanche s) = runAvalanche s := by
  have hbytes : msgByte (runAvalanche s) = msgByte s := msgByte_congr (runAvalanche_msg s)
  have hcopy : copyByte (runAvalanche s) = copyByte s :=
    copyByte_congr (runAvalanche_msg s) (runAvalanche_bitpos s)
  rw [runAvalanche, hbytes, hcopy]
  simp only [runAvalanche, msgLen]

theorem exec_hash_again {s t : State} (h : exec .hash s = .next t) : exec .hash t = .next t := by
  obtain ⟨hkept, -⟩ := exec_kept h
  obtain ⟨hcfg, hmlen, -, hmsg, -⟩ := (State.kept_eq_iff s t).mp hkept
  have hcheck : lengthError t = lengthError s := lengthError_congr hcfg hmlen
  obtain ⟨e, herr, rfl⟩ | ⟨hpass, rfl⟩ := exec_hash_cases h
  · rw [exec_hash_of_error (hcheck.trans herr), raiseError_raiseError]
  · rw [exec_hash_of_pass (hcheck.trans hpass), msgByte_congr hmsg, runPipeline_succeed, runPipeline_runPipeline,
      succeed_succeed fun _ => rfl]

theorem exec_aval_again {s t : State} (h : exec .aval s = .next t) : exec .aval t = .next t := by
  obtain ⟨hkept, -⟩ := exec_kept h
  obtain ⟨hcfg, hmlen, hbitpos, -⟩ := (State.kept_eq_iff s t).mp hkept
  have hcheck : avalError t = avalError s := avalError_congr hcfg hmlen hbitpos
  obtain ⟨e, herr, rfl⟩ | ⟨hpass, rfl⟩ := exec_aval_cases h
  · rw [exec_aval_of_error (hcheck.trans herr), raiseError_raiseError]
  · rw [exec_aval_of_pass (hcheck.trans hpass), runAvalanche_succeed, runAvalanche_runAvalanche,
      succeed_succeed fun _ => rfl]

/-- Settles O28: HASH and AVAL take the same branch again, and the other commands write constants and values of the
configuration, which is kept. -/
theorem commandsAreRepeatable : Obligations.CommandsAreRepeatable := by
  intro i s t h
  cases i with
  | hash => exact exec_hash_again h
  | aval => exact exec_aval_again h
  | xcm => obtain rfl := exec_xcm_cases h; rfl
  | xcme i j => obtain rfl := exec_xcme_cases h; rfl
  | mix => obtain rfl := exec_mix_cases h; rfl
  | clr => obtain rfl := exec_clr_cases h; rfl

end Sys2Proof.Machine
end

section
/-! AVAL whole (R171), and AVAL beside HASH (R170, R173): on the message, and on the message with the bit flipped. -/

namespace Sys2Proof.Machine

/-! ### What AVAL answers (R171, R203, R208) -/

theorem avalError_of_lengthError {s : State} {e : CommandError} (h : lengthError s = some e) :
    avalError s = some e := by
  simp only [avalError, h]

theorem avalError_of_flipPos_ge {s : State} (hlen : lengthError s = none) (hpos : 8 * msgLen s ≤ flipPos s) :
    avalError s = some .bitposRange := by
  simp only [avalError, hlen, hpos, if_true]

/-- ERRCODE = 0 after AVAL tells that its checks passed. -/
theorem exec_aval_of_errcode_eq_zero {s a : State} (h : exec .aval s = .next a) (h0 : a.status.errcode = 0) :
    avalError s = none ∧ a = succeed (fun st => { st with av := true, dv := true }) (runAvalanche s) := by
  obtain ⟨e, -, rfl⟩ | hpass := exec_aval_cases h
  · exact absurd h0 (errorCode_ne_zero e)
  · exact hpass

/-- HASH makes two of the three checks of AVAL. -/
theorem lengthError_of_avalError_eq_none {s : State} (h : avalError s = none) : lengthError s = none := by
  obtain ⟨hlen, hcap, -⟩ := (avalError_eq_none s).mp h
  exact (lengthError_eq_none s).mpr ⟨hlen, hcap⟩

/-- Settles O32: the checks fall out in four ways, one for each branch, and in each AVAL answers what its rule for that
outcome gives; `flipped` is `copyByte s` written out. -/
theorem avalComputesAvalanche : Obligations.AvalComputesAvalanche := by
  refine ⟨decode_of_encode_eq rfl, fun s => ?_⟩
  intro flipped
  rw [← show msgLen s = s.mlen.toNat from rfl, ← show flipPos s = s.bitpos.toNat from rfl]
  obtain ⟨hlen, herr⟩ | ⟨hlen, hcap, herr⟩ | ⟨hlen, hcap, herr⟩ := lengthError_cases s
  · rw [exec_aval_of_error (avalError_of_lengthError herr), if_pos hlen]
    rfl
  · rw [exec_aval_of_error (avalError_of_lengthError herr), if_neg (Nat.not_le.mpr hlen), if_pos hcap]
    rfl
  · rw [if_neg (Nat.not_le.mpr hlen), if_neg (Nat.not_lt.mpr hcap)]
    by_cases hpos : 8 * msgLen s ≤ flipPos s
    · rw [exec_aval_of_error (avalError_of_flipPos_ge herr hpos), if_pos hpos]
      rfl
    · rw [exec_aval_of_pass ((avalError_eq_none s).mpr ⟨hlen, hcap, Nat.not_le.mp hpos⟩), if_neg hpos,
        ← lastSchedule_eq]
      rfl

/-- Settles O36: MLEN = 0 passes the length checks, and no position is below 8 * 0. -/
theorem avalOnEmptyMessageIsBitposRange : Obligations.AvalOnEmptyMessageIsBitposRange := by
  intro s h0
  have hzero : msgLen s = 0 := congrArg BitVec.toNat h0
  have hlen : lengthError s = none := (lengthError_eq_none s).mpr (by omega)
  rw [exec_aval_of_error (avalError_of_flipPos_ge hlen (by omega))]
  rfl

/-! ### AVAL beside HASH (R170, R173) -/

/-- Settles O34: where AVAL's checks pass so do those of HASH, and both compute the digest of the same bytes. -/
theorem avalRefIsHashDigest : Obligations.AvalRefIsHashDigest := by
  intro s a b ha h0 hb
  obtain ⟨hpass, rfl⟩ := exec_aval_of_errcode_eq_zero ha h0
  rw [exec_hash_of_pass (lengthError_of_avalError_eq_none hpass)] at hb
  obtain rfl := Host.Outcome.next.inj hb
  simp

/-- The `MsgWrite` with which the host inverts bit BITPOS of the message itself (R170). -/
def hostFlip (s : State) : State :=
  msgWrite (BitVec.ofNat 64 (flipPos s / 8)) (copyByte s (flipPos s / 8)) s

/-- Below MSG_CAP the host's write leaves in MSG the bytes that AVAL takes from its flipped copy (R170). -/
theorem msgByte_hostFlip {s : State} (h : flipPos s / 8 < s.cfg.msgCap) : msgByte (hostFlip s) = copyByte s := by
  have haddr : (BitVec.ofNat 64 (flipPos s / 8)).toNat = flipPos s / 8 :=
    toNat_ofNat_of_lt (Nat.lt_of_le_of_lt (Nat.div_le_self _ _) s.bitpos.isLt)
  funext q
  rw [msgByte, hostFlip, read_msgWrite, haddr]
  by_cases hq : q = flipPos s / 8
  · rw [if_pos ⟨h, hq⟩, hq]
  · rw [if_neg fun hw => hq hw.2, copyByte, flipByte, if_neg hq, msgByte]

/-- Settles O35: the flipped byte is one of the message, so it exists, and HASH runs on the bytes of AVAL's copy. -/
theorem avalCopyIsHostFlippedMessage : Obligations.AvalCopyIsHostFlippedMessage := by
  intro s a b ha h0 hb
  obtain ⟨hpass, rfl⟩ := exec_aval_of_errcode_eq_zero ha h0
  obtain ⟨-, hcap, hpos⟩ := (avalError_eq_none s).mp hpass
  have hflip : msgWrite (BitVec.ofNat 64 (s.bitpos.toNat / 8))
      (Memory.read s.msg (s.bitpos.toNat / 8) ^^^ BitVec.twoPow 8 (s.bitpos.toNat % 8)) s = hostFlip s := by
    rw [hostFlip, copyByte, flipByte, if_pos rfl]
    rfl
  have hbytes : msgByte (hostFlip s) = copyByte s := msgByte_hostFlip (by omega)
  have hcfg : (hostFlip s).cfg = s.cfg := msgWrite_cfg _ _ s
  have hmlen : (hostFlip s).mlen = s.mlen := msgWrite_mlen _ _ s
  have hcheck : lengthError (hostFlip s) = none :=
    (lengthError_congr hcfg hmlen).trans (lengthError_of_avalError_eq_none hpass)
  rw [hflip, exec_hash_of_pass hcheck] at hb
  obtain rfl := Host.Outcome.next.inj hb
  simp [hbytes, hcfg, msgLen, hmlen]

end Sys2Proof.Machine
end

section
/-! The XOR-cancellation matrix (R180 to R184): an entry depends on the difference of its indices alone, which gives its
value and the least one, and with these what XCM and XCME leave. -/

namespace Sys2Proof.Machine

/-! ### Rotating both operands (R91, R97, R98)

The diffusion functions commute with a rotation, and a rotation keeps the number of bits set. -/

theorem rotr_comm (x : Word) (m n : Fin 32) : rotr (rotr x m) n = rotr (rotr x n) m :=
  BitVec.eq_of_getLsbD_eq fun k hk => by
    simp only [getLsbD_rotr _ _ hk, getLsbD_rotr _ _ (Nat.mod_lt _ (by decide : 0 < 32))]
    congr 1
    omega

theorem sigma0_rotr (x : Word) (n : Fin 32) : sigma0 (rotr x n) = rotr (sigma0 x) n := by
  simp only [sigma0, rotr_xor, rotr_comm x n]

theorem sigma1_rotr (x : Word) (n : Fin 32) : sigma1 (rotr x n) = rotr (sigma1 x) n := by
  simp only [sigma1, rotr_xor, rotr_comm x n]

theorem popcount_eq_countP_finRange (x : Word) :
    popcount x = (List.finRange 32).countP fun k => x.getLsbD k.val := by
  rw [popcount, ← List.map_coe_finRange_eq_range, List.countP_map]
  rfl

/-- A rotation permutes the bits. -/
theorem popcount_rotr (x : Word) (n : Fin 32) : popcount (rotr x n) = popcount x := by
  have hbit : ∀ k : Fin 32, (rotr x n).getLsbD k.val = x.getLsbD (Equiv.addRight n k).val :=
    fun k => getLsbD_rotr x n k.isLt
  simp only [popcount_eq_countP_finRange, hbit]
  rw [← (Equiv.addRight n).map_finRange_perm.countP_eq fun k => x.getLsbD k.val, List.countP_map]
  rfl

/-! ### The entries (R180, R184) -/

theorem rotr_unitWord (i j : BitVec 5) : rotr (unitWord j) i.toFin = unitWord (j - i) :=
  BitVec.eq_of_getLsbD_eq fun k hk => by
    have hi := i.isLt
    have hj := j.isLt
    have hmod : (k + i.toNat) % 32 < 32 := Nat.mod_lt _ (by decide)
    rw [getLsbD_rotr _ _ hk, unitWord, unitWord, BitVec.getLsbD_twoPow, BitVec.getLsbD_twoPow, BitVec.val_toFin,
      BitVec.toNat_sub, Bool.eq_iff_iff]
    simp only [Bool.and_eq_true, decide_eq_true_eq]
    omega

/-- Rotating both words by `i` takes the entry to row 0. -/
theorem cancelEntry_eq_of_difference (i j : BitVec 5) : cancelEntry i j = cancelEntry 0 (j - i) := by
  rw [cancelEntry, ← popcount_rotr _ i.toFin, rotr_xor, ← sigma0_rotr, ← sigma1_rotr, rotr_unitWord, rotr_unitWord,
    BitVec.sub_self, cancelEntry, BitVec.ofNat_eq_ofNat]

theorem cancelEntry_row_zero : ∀ d : BitVec 5,
    cancelEntry 0 d = if d.toNat ∈ [3, 4, 9, 12, 16, 21, 23, 25, 30] then 4 else 6 := by decide

theorem cancelEntry_eq (i j : BitVec 5) :
    cancelEntry i j = if (j - i).toNat ∈ [3, 4, 9, 12, 16, 21, 23, 25, 30] then 4 else 6 := by
  rw [cancelEntry_eq_of_difference, cancelEntry_row_zero]

theorem cancelEntry_eq_four_or_six (i j : BitVec 5) : cancelEntry i j = 4 ∨ cancelEntry i j = 6 := by
  rw [cancelEntry_eq]
  split
  · exact .inl rfl
  · exact .inr rfl

/-- Three bits hold every entry (R33). -/
theorem toNat_ofNat_cancelEntry (i j : BitVec 5) : (BitVec.ofNat 3 (cancelEntry i j)).toNat = cancelEntry i j := by
  have hvalue := cancelEntry_eq_four_or_six i j
  exact toNat_ofNat_of_lt (by omega)

/-! ### The minimum (R181) -/

/-- Folding `min` over the 32 indices, from the value at 0, gives the least value. -/
theorem isLeast_foldl_min (f : BitVec 5 → Nat) :
    IsLeast (Set.range f) ((List.range 32).foldl (fun acc j => min acc (f (BitVec.ofNat 5 j))) (f 0)) := by
  have hmin := List.min?_eq_some_iff.mp
    (List.min?_cons' (x := f 0) (xs := (List.range 32).map fun j => f (BitVec.ofNat 5 j)))
  rw [List.foldl_map] at hmin
  obtain ⟨hmem, hle⟩ := hmin
  constructor
  · obtain h0 | hmem := List.mem_cons.mp hmem
    · exact ⟨0, h0.symm⟩
    · obtain ⟨j, -, hj⟩ := List.mem_map.mp hmem
      exact ⟨_, hj⟩
  · rintro _ ⟨x, rfl⟩
    refine hle _ (List.mem_cons_of_mem _ (List.mem_map.mpr ⟨x.toNat, List.mem_range.mpr x.isLt, ?_⟩))
    rw [BitVec.ofNat_toNat, BitVec.setWidth_eq]

theorem isLeast_cancelRowMin (i : BitVec 5) : IsLeast (Set.range (cancelEntry i)) (cancelRowMin i) :=
  isLeast_foldl_min (cancelEntry i)

theorem isLeast_cancelMin_rows : IsLeast (Set.range cancelRowMin) cancelMin := isLeast_foldl_min cancelRowMin

theorem cancelMin_le (i j : BitVec 5) : cancelMin ≤ cancelEntry i j :=
  (isLeast_cancelMin_rows.2 ⟨i, rfl⟩).trans ((isLeast_cancelRowMin i).2 ⟨j, rfl⟩)

theorem exists_cancelEntry_eq_cancelMin : ∃ i j, cancelEntry i j = cancelMin := by
  obtain ⟨i, hi⟩ := isLeast_cancelMin_rows.1
  obtain ⟨j, hj⟩ := (isLeast_cancelRowMin i).1
  exact ⟨i, j, hj.trans hi⟩

/-- The least entry is 4 or 6, and one of the entries is 4 (R184). -/
theorem cancelMin_eq_four : cancelMin = 4 := by
  have hle : cancelMin ≤ 4 := (cancelMin_le 0 3).trans_eq (cancelEntry_row_zero 3)
  obtain ⟨i, j, hij⟩ := exists_cancelEntry_eq_cancelMin
  have hvalue := cancelEntry_eq_four_or_six i j
  omega

/-! ### XCM (R181, R184) -/

theorem getElem_cancelMatrix (i j : Fin 32) :
    cancelMatrix[i][j] = BitVec.ofNat 3 (cancelEntry (BitVec.ofNat 5 i.val) (BitVec.ofNat 5 j.val)) := by
  simp [cancelMatrix]

theorem toNat_getElem_cancelMatrix (i j : Fin 32) :
    cancelMatrix[i][j].toNat = cancelEntry (BitVec.ofNat 5 i.val) (BitVec.ofNat 5 j.val) := by
  rw [getElem_cancelMatrix, toNat_ofNat_cancelEntry]

/-- The entry at a row and a column, by the unit vectors of R180. -/
theorem cancelEntry_ofNat (i j : Fin 32) :
    cancelEntry (BitVec.ofNat 5 i.val) (BitVec.ofNat 5 j.val) =
      popcount (sigma0 (BitVec.twoPow 32 i.val) ^^^ sigma1 (BitVec.twoPow 32 j.val)) := by
  rw [cancelEntry, unitWord, unitWord, toNat_ofNat_of_lt i.isLt, toNat_ofNat_of_lt j.isLt]

theorem toNat_ofNat_cancelMin : (BitVec.ofNat 3 cancelMin).toNat = cancelMin := by
  rw [cancelMin_eq_four]
  rfl

theorem xge4Of_eq_true (minimum : Nat) : xge4Of minimum = true ↔ 4 ≤ minimum := decide_eq_true_iff

theorem exec_xcm (s : State) :
    exec .xcm s = .next (succeed (fun st => { st with xge4 := xge4Of cancelMin, xv := true })
      { s with xcm := cancelMatrix, xmin := BitVec.ofNat 3 cancelMin }) := rfl

/-- Settles O42: the table holds the entries, none of which three bits cut, and XMIN the least of them. -/
theorem xcmFillsMatrix : Obligations.XcmFillsMatrix := by
  refine ⟨decode_of_encode_eq rfl, fun s => ⟨_, exec_xcm s, fun i j => ?_, fun i j => ?_, ?_, ?_, ?_⟩⟩
  · exact (toNat_getElem_cancelMatrix i j).trans (cancelEntry_ofNat i j)
  · rw [succeed_xmin, succeed_xcm, toNat_ofNat_cancelMin, toNat_getElem_cancelMatrix]
    exact cancelMin_le _ _
  · obtain ⟨i, j, hij⟩ := exists_cancelEntry_eq_cancelMin
    refine ⟨i.toFin, j.toFin, ?_⟩
    rw [succeed_xmin, succeed_xcm, toNat_ofNat_cancelMin, toNat_getElem_cancelMatrix, BitVec.val_toFin,
      BitVec.val_toFin, BitVec.ofNat_toNat, BitVec.ofNat_toNat, BitVec.setWidth_eq, BitVec.setWidth_eq, hij]
  · rw [succeed_xmin, toNat_ofNat_cancelMin, succeed_status, statusOnSuccess_xge4, xge4Of_eq_true]
  · simp only [succeed, statusOnSuccess]

/-- Settles O43. -/
theorem matrixValues : Obligations.MatrixValues := by
  refine ⟨cancelEntry_eq, fun s t h => ?_⟩
  obtain rfl := exec_xcm_cases h
  simp [cancelMin_eq_four, xge4Of_eq_true]

/-! ### XCME (R183) -/

/-- The word of XCME by the weights of its fields (R72). -/
theorem encode_xcme_eq_ofNat (i j : BitVec 5) :
    encode (.xcme i j) = BitVec.ofNat 32 (4 + i.toNat * 2 ^ 8 + j.toNat * 2 ^ 16) := by
  have hi := i.isLt
  have hj := j.isLt
  refine BitVec.eq_of_toNat_eq ?_
  rw [toNat_ofNat_of_lt (by omega), encode, encodeFormatX]
  simp only [toNat_append_eq_add, BitVec.ofNat_eq_ofNat, BitVec.toNat_ofNat]
  omega

/-- A word that matches no row of R74 raises ILLEGAL_CMD (R205). -/
theorem runCommand_of_no_match {c : Word} (h : ∀ i : Instr, c &&& rowMask i ≠ rowMatch i) (s : State) :
    runCommand c s = .next (raiseError .noResult .illegalCmd s) := by
  obtain ⟨-, hrefused, -⟩ := decoderFollowsTable
  obtain ⟨e, he⟩ := (hrefused c).mpr h
  simp only [runCommand, he]

/-- A word with the opcode of XCME can match the row of XCME alone. -/
theorem no_match_of_xcme_opcode {c : Word} (hop : c.toNat % 2 ^ 8 = 4) (hrow : c &&& 0xFFE0E0FF ≠ 4) (i : Instr) :
    c &&& rowMask i ≠ rowMatch i := by
  intro hmatch
  obtain ⟨j, rfl, -⟩ := encode_of_matches hmatch
  cases j with
  | xcme a b => exact hrow (encode_matches_row (.xcme a b))
  | hash | aval | xcm | mix | clr => exact absurd hop (by decide)

/-- Settles O44: three bits hold the entry, and a word with the opcode of XCME that is not in its row is in no row. -/
theorem xcmeComputesEntry : Obligations.XcmeComputesEntry := by
  refine ⟨fun i j => decode_of_encode_eq (encode_xcme_eq_ofNat i j), fun s i j => ?_, fun s c hop hrow => ?_⟩
  · exact ⟨BitVec.ofNat 3 (cancelEntry i j), toNat_ofNat_cancelEntry i j, rfl⟩
  · rw [runCommand_of_no_match (no_match_of_xcme_opcode hop hrow)]
    rfl

end Sys2Proof.Machine
end

section
/-! The mix-ratio scorer (R191, R192). -/

namespace Sys2Proof.Machine

theorem exec_mix (s : State) :
    exec .mix s = .next (succeed
      (fun st => { st with mgt4 := mgt4Of (scoreNumerator s.cfg) s.cfg.mixInvOps, mv := true })
      { s with
        mixnum := BitVec.ofNat 16 s.cfg.mixMixOps
        mixden := BitVec.ofNat 16 s.cfg.mixInvOps
        scorenum := BitVec.ofNat 21 (scoreNumerator s.cfg) }) := rfl

/-- Settles O45: MIX sets MV, so the mix clause of the invariant gives the values its registers hold. -/
theorem mixReportsConfiguredRatio : Obligations.MixReportsConfiguredRatio := by
  refine ⟨decode_of_encode_eq rfl, fun s hl => ⟨_, exec_mix s, ?_⟩⟩
  obtain ⟨-, hnum, hden, hscore, hmgt4⟩ | ⟨hmv, -⟩ := mixConsistent_of_execMix hl (exec_mix s)
  · rw [Nat.mul_comm s.cfg.mixMixOps 24]
    exact ⟨hnum, hden, hscore, hmgt4, rfl⟩
  · cases hmv

end Sys2Proof.Machine
end

section
/-! The outcome of a command (R200 to R210), and reset beside CLR and power-on (R230, R231). -/

namespace Sys2Proof.Machine

/-! ### Errors (R200 to R205, R208, R210) -/

/-- Settles O15. -/
theorem illegalCommandSetsErrcodeOnly : Obligations.IllegalCommandSetsErrcodeOnly := by
  intro s c rest hl hi hp hnone
  have hcmd : (0x000 : BitVec 11) = regAddress .cmd := rfl
  rw [step_idle_cons hl hi hp, transact, if_pos hcmd, runCommand_of_no_match hnone]
  rfl

/-- Settles O39: HASH and AVAL answer by their checks in order, and the other commands make no check. -/
theorem everyCommandReportsItsOutcome : Obligations.EveryCommandReportsItsOutcome := by
  intro i s t h
  cases i with
  | hash =>
    obtain ⟨-, -, hhash⟩ := hashComputesDigest
    obtain rfl := Host.Outcome.next.inj ((hhash s).symm.trans h)
    split_ifs <;> rfl
  | aval =>
    obtain ⟨-, haval⟩ := avalComputesAvalanche
    obtain rfl := Host.Outcome.next.inj ((haval s).symm.trans h)
    split_ifs <;> rfl
  | xcm => obtain rfl := exec_xcm_cases h; rfl
  | xcme i j => obtain rfl := exec_xcme_cases h; rfl
  | mix => obtain rfl := exec_mix_cases h; rfl
  | clr => obtain rfl := exec_clr_cases h; rfl

/-- Settles O40: a failing check raises the error of its command, and a command that makes no check or passes its checks
leaves ERRCODE = 0. -/
theorem failedCommandKeepsResults : Obligations.FailedCommandKeepsResults := by
  intro i s t h hfailed
  have hcode := everyCommandReportsItsOutcome i s t h
  cases i with
  | hash =>
    obtain ⟨e, -, rfl⟩ | ⟨-, rfl⟩ := exec_hash_cases h
    · exact .inl ⟨rfl, rfl⟩
    · exact absurd rfl hfailed
  | aval =>
    obtain ⟨e, -, rfl⟩ | ⟨-, rfl⟩ := exec_aval_cases h
    · exact .inr ⟨rfl, rfl⟩
    · exact absurd rfl hfailed
  | xcm | xcme _ _ | mix | clr => exact absurd hcode hfailed

/-! ### Reset, CLR and power-on (R230, R231) -/

/-- Settles O24: on an idle block the reset event writes what CLR writes and the two operands. -/
theorem clrResetAndPowerOnDifferInOnePoint : Obligations.ClrResetAndPowerOnDifferInOnePoint := by
  refine ⟨fun s t hi h => ?_, fun s msg => rfl⟩
  obtain rfl := exec_clr_cases h
  simp only [resetEvent, clearResults, hi]

/-- Settles O21. -/
theorem resetEventResetsRegisters : Obligations.ResetEventResetsRegisters := by
  intro s rest hl hi hp
  rw [step_idle_cons hl hi hp]
  rfl

end Sys2Proof.Machine
end
